-- ==== Sys2Proof/Word.lean ====
section
/-! DEFINITION. The byte of the two serial lines and the numbered tables of fixed size. -/

namespace Sys2Proof

/-- One byte on either line, or of a job record (R189). -/
abbrev Byte := BitVec 8

/-- The entry of a numbered table at an index of its range. -/
def look {α : Type} {n : Nat} (v : Vector α n) (i : Fin n) : α := v[i.val]'i.isLt

/-- The table with one entry replaced. -/
def put {α : Type} {n : Nat} (v : Vector α n) (i : Fin n) (a : α) : Vector α n := v.set i.val a i.isLt

/-- `n` as a number below `k`, when it is one. -/
def fin? (k n : Nat) : Option (Fin k) := if h : n < k then some ⟨n, h⟩ else none

end Sys2Proof
end

