-- ==== Sys2Proof/Config.lean ====
section
/-! DEFINITION. What an implementation fixes, and the one free value of the model. -/

namespace Sys2Proof.Config

/-- FREE VALUE (log 10): the byte at place `i` of a field whose value is absent, in a reply or a notice.
R190 gives such a field its size and no file of the spec gives the bytes; the model leaves them open. -/
opaque absentByte : Nat → Byte

/-- How many hand-offs of the agenda one command may run (log 6, DESIGN CHOICE): a bound that no chain of the rules comes near. -/
def agendaFuel : Nat := 1000000

end Sys2Proof.Config
end

