-- ==== Sys2Proof/Syntax.lean ====
section
/-! DEFINITION. The commands of the part, one constructor of `Instr` for each row of spec/opcode_table.json, and the words
they are made of: stock tags, job records, gantry events. -/

namespace Sys2Proof

/-- The kind of a stock tag (00 §6). -/
inductive TagKind where
  | mill | remnant
  deriving DecidableEq, Repr

/-- A stock tag: a kind and a number; two tags match when both are equal (00 §6, R1). -/
structure Tag where
  kind : TagKind
  num  : Nat
  deriving DecidableEq, Repr

/-- The plate condition of a header or of BED DECLARE (R10, R40). -/
inductive Condition where
  | fresh | continuation
  deriving DecidableEq, Repr

/-- The eleven job outcomes, in the order of R52. -/
inductive JobOutcome where
  | ok | format | plateMismatch | plateState | registerFail | skew | travel | arcFail | machine | link | aborted
  deriving DecidableEq, Repr

/-- The counters of a job (R52). -/
structure Counters where
  partsCut        : Nat := 0
  partsSkipped    : Nat := 0
  partsUnmarked   : Nat := 0
  burnedLength    : Nat := 0
  pierces         : Nat := 0
  pierceRetries   : Nat := 0
  referencesTaken : Nat := 0
  lastPart        : Nat := 0
  deriving DecidableEq, Repr

/-- The completion record (R52). -/
structure Completion where
  outcome    : JobOutcome
  counters   : Counters
  stopRecord : Option Nat
  deriving DecidableEq, Repr

/-- A job record as it is stored: its kind and listed fields (R40, R46, R195). -/
inductive Record where
  | empty
  | header (tag : Tag) (bed : Fin 8) (grade thickness : Nat) (condition : Condition) (declared : Option (Nat × Nat)) (parts : Nat)
  | completion (c : Completion)
  | part (tag u v : Nat) (required : Bool) (texts : Nat)
  | text (chars : List Byte)
  | pierce (u v current : Nat)
  | line (u v feed length : Nat)
  | arc (u v cu cv : Nat) (ccw : Bool) (feed length : Nat)
  | rapid (u v : Nat)
  | endOfJob
  deriving DecidableEq, Repr

/-- One event of a gantry's event list (R171, R194). -/
inductive GantryEvent where
  | registered (ox oy k : Int)
  | registerFailed
  | referenceDone
  | pierceOk
  | pierceFailed
  | segmentsDone (count : Nat)
  | markDone (slot : Nat) (ok : Bool)
  | stoppedAt (record fraction : Nat)
  | fault (code : Nat)
  deriving DecidableEq, Repr

/-- The order events of a crane's POSITION answer (R170, R193). -/
inductive OrderEventKind where
  | picked | placed | aborted
  deriving DecidableEq, Repr

/-- A stock tag, or SKELETON, as a request carries it: the kind byte (1 MILL, 2 REMNANT, 3 SKELETON) and the number. -/
structure RawTag where
  kind : Nat
  num  : Nat
  deriving DecidableEq, Repr

/-- A place as a request carries it: the place code (0 BED, 1 SLOT, 2 INFEED, 3 OUTFEED, 4 HOOK) and a number. -/
structure RawPlace where
  code : Nat
  num  : Nat
  deriving DecidableEq, Repr

/-- The two codes the Office Port itself refuses a request with (R178). -/
inductive OfficeFault where
  | badRequest | badTable
  deriving DecidableEq, Repr

/-- The commands of the part. A request row carries the frame's tag and the request's fields in the order of its rule
(12.1); enumerations and yes/no fields are carried as their codes, so that an unknown code reaches the rule that judges it. -/
inductive Instr where
  | jobOpen (tag pages : Nat)
  | jobWrite (tag job offset : Nat) (records : List (List Byte))
  | jobRead (tag job offset count : Nat)
  | jobEnqueue (tag job gantry : Nat)
  | jobRelease (tag job : Nat)
  | completionAck (tag : Nat)
  | completionAckAndRelease (tag : Nat)
  | gantryEnable (tag gantry : Nat)
  | gantryDisable (tag gantry : Nat)
  | gantryHold (tag gantry : Nat)
  | gantryRelease (tag gantry : Nat)
  | partDecision (tag gantry part decision : Nat)
  | bedDeclare (tag bed : Nat) (plate : RawTag) (condition : Nat)
  | bedClear (tag bed : Nat)
  | craneOrder (tag crane : Nat) (source destination : RawPlace) (load : RawTag)
  | craneOrderCancel (tag order : Nat)
  | remnantEnter (tag grade thickness width length heatLength : Nat) (heatChars : List Byte) (location : RawPlace)
  | remnantRemove (tag number : Nat)
  | remnantRelocate (tag number : Nat) (location : RawPlace)
  | remnantUnreserve (tag number : Nat)
  | store (tag number : Nat)
  | remnantRequest (tag grade thickness w l rotate deep reservation : Nat)
  | loadEntryBed (tag index loaded : Nat) (xLo xHi yLo yHi ox oy : Int)
  | loadEntryGantry (tag index loaded reach : Nat) (xMin xMax yMin yMax : Int) (period retryLimit autoRelease mode depth : Nat)
  | loadEntryCrane (tag index installed margin timeout rack : Nat)
  | loadEntrySlot (tag index loaded : Nat) (x y : Int) (maxWidth maxLength : Nat)
  | loadEntryPass (tag index diagnostic parameter motion io : Nat)
  | loadEntryBand (tag index loaded bound margin : Nat)
  | loadEntryController (tag index window : Nat) (hallLength hallWidth : Int) (digPenalty digReserve minimumSize : Nat)
  | readEntryBed (tag first count step : Nat)
  | readEntryGantry (tag first count step : Nat)
  | readEntryCrane (tag first count step : Nat)
  | readEntrySlot (tag first count step : Nat)
  | readEntryPass (tag first count step : Nat)
  | readEntryBand (tag first count step : Nat)
  | readEntryController (tag first count step : Nat)
  | readEntryPresence (tag first count step : Nat)
  | readEntryRegistration (tag first count step : Nat)
  | readEntryJob (tag first count step : Nat)
  | readEntryMark (tag first count step : Nat)
  | readEntryOrder (tag first count step : Nat)
  | readEntryRemnant (tag first count step : Nat)
  | readEntryStation (tag first count step : Nat)
  | readStatus (tag : Nat)
  | clearFlags (tag : Nat)
  | controllerReset (tag : Nat)
  | passthrough (tag destination kind : Nat) (payload : List Byte)
  | unknownRequest (tag kind : Nat) (fault : OfficeFault)
  | officeFrameReceived (bytes : List Byte)
  | officeByteGap (before : List Byte) (next : Byte)
  | officeTransmitDone
  | coldReset (byInput : Bool)
  | floorGrant
  | missSilenceEnd
  | answerWindowExpiry (begun : Bool)
  | badAnswer (bytes : List Byte)
  | cranePollAnswer (address : Nat) (x y : Int) (hookLow loaded : Bool) (event : Option (OrderEventKind × Nat))
  | gantryPollAnswer (address : Nat) (events : List GantryEvent)
  | answerAck (address : Nat)
  | answerRefuse (address code : Nat)
  | passthroughAnswer (address kind : Nat) (payload : List Byte)
  | duePollRaise (crane : Fin 2)
  | positionTimeout (crane : Fin 2)
  | reportAgeTick
  | officeLengthDrop (bytes : List Byte)
  | resetInputRelease
  deriving DecidableEq, Repr

end Sys2Proof
end

