-- ==== Sys2Proof/WellFormed.lean ====
section
/-! DEFINITION. Well-formed commands: every operand fits the field that carries it (12.1, 12.3). -/

namespace Sys2Proof

/-- A field of one byte. -/
def fits8 (n : Nat) : Bool := n < 256
/-- A field of two bytes. -/
def fits16 (n : Nat) : Bool := n < 65536
/-- A field of four bytes. -/
def fits32 (n : Nat) : Bool := n < 4294967296
/-- A signed field of four bytes (R189). -/
def fitsCoord (z : Int) : Bool := -2147483648 ≤ z && z < 2147483648

/-- A stock tag of five bytes. -/
def RawTag.wf (t : RawTag) : Bool := fits8 t.kind && fits32 t.num
/-- A place of two bytes (log 9). -/
def RawPlace.wf (p : RawPlace) : Bool := fits8 p.code && fits8 p.num

/-- The four bytes of READ ENTRY after the kind (R183). -/
def readWf (tag first count step : Nat) : Bool := fits16 tag && fits8 first && fits8 count && fits8 step

/-- The fields of one event fit the list of R194. -/
def GantryEvent.wf : GantryEvent → Bool
  | .registered ox oy k => fitsCoord ox && fitsCoord oy && fitsCoord k
  | .registerFailed => true
  | .referenceDone => true
  | .pierceOk => true
  | .pierceFailed => true
  | .segmentsDone n => fits8 n
  | .markDone s _ => fits8 s
  | .stoppedAt r f => fits16 r && fits8 f
  | .fault c => fits8 c

/-- The answer that these bytes begin has ended (R192): a first byte that is not the start byte 0x5A, a length out of range, or the
length + 2 bytes after the length byte. Of an answer that stalls before its end, the row is ANSWER WINDOW EXPIRY (log 41). -/
def answerEnded : List Byte → Bool
  | [] => false
  | [start] => start != 0x5A
  | start :: len :: rest => start != 0x5A || len.toNat < 2 || 240 < len.toNat || len.toNat + 2 ≤ rest.length

/-- Every operand of the command fits its field. -/
def Instr.wf : Instr → Bool
  | .jobOpen t n => fits16 t && fits16 n
  | .jobWrite t j o rs => fits16 t && fits8 j && fits16 o && rs.length ≤ 9 && rs.all (fun r => r.length == 24)
  | .jobRead t j o n => fits16 t && fits8 j && fits16 o && fits8 n
  | .jobEnqueue t j g => fits16 t && fits8 j && fits8 g
  | .jobRelease t j => fits16 t && fits8 j
  | .completionAck t => fits16 t
  | .completionAckAndRelease t => fits16 t
  | .gantryEnable t g => fits16 t && fits8 g
  | .gantryDisable t g => fits16 t && fits8 g
  | .gantryHold t g => fits16 t && fits8 g
  | .gantryRelease t g => fits16 t && fits8 g
  | .partDecision t g p d => fits16 t && fits8 g && fits16 p && fits8 d
  | .bedDeclare t b p c => fits16 t && fits8 b && p.wf && fits8 c
  | .bedClear t b => fits16 t && fits8 b
  | .craneOrder t c s d l => fits16 t && fits8 c && s.wf && d.wf && l.wf
  | .craneOrderCancel t n => fits16 t && fits8 n
  | .remnantEnter t g th w l hl hc p => fits16 t && fits8 g && fits16 th && fits16 w && fits16 l && fits8 hl && hc.length == 12 && p.wf
  | .remnantRemove t n => fits16 t && fits32 n
  | .remnantRelocate t n p => fits16 t && fits32 n && p.wf
  | .remnantUnreserve t n => fits16 t && fits32 n
  | .store t n => fits16 t && fits32 n
  | .remnantRequest t g th w l ro de rv => fits16 t && fits8 g && fits16 th && fits16 w && fits16 l && fits8 ro && fits8 de && fits16 rv
  | .loadEntryBed t i ld a b c d e f =>
      fits16 t && fits8 i && fits8 ld && fitsCoord a && fitsCoord b && fitsCoord c && fitsCoord d && fitsCoord e && fitsCoord f
  | .loadEntryGantry t i ld r a b c d p rl ar m dp =>
      fits16 t && fits8 i && fits8 ld && fits8 r && fitsCoord a && fitsCoord b && fitsCoord c && fitsCoord d && fits32 p && fits8 rl
        && fits8 ar && fits8 m && fits8 dp
  | .loadEntryCrane t i ins m tmo r => fits16 t && fits8 i && fits8 ins && fits16 m && fits16 tmo && fits8 r
  | .loadEntrySlot t i ld x y w l => fits16 t && fits8 i && fits8 ld && fitsCoord x && fitsCoord y && fits16 w && fits16 l
  | .loadEntryPass t i a b c d => fits16 t && fits8 i && fits8 a && fits8 b && fits8 c && fits8 d
  | .loadEntryBand t i ld b m => fits16 t && fits8 i && fits8 ld && fits16 b && fits16 m
  | .loadEntryController t i w l wd p r m =>
      fits16 t && fits8 i && fits16 w && fitsCoord l && fitsCoord wd && fits16 p && fits8 r && fits16 m
  | .readEntryBed t f c s => readWf t f c s
  | .readEntryGantry t f c s => readWf t f c s
  | .readEntryCrane t f c s => readWf t f c s
  | .readEntrySlot t f c s => readWf t f c s
  | .readEntryPass t f c s => readWf t f c s
  | .readEntryBand t f c s => readWf t f c s
  | .readEntryController t f c s => readWf t f c s
  | .readEntryPresence t f c s => readWf t f c s
  | .readEntryRegistration t f c s => readWf t f c s
  | .readEntryJob t f c s => readWf t f c s
  | .readEntryMark t f c s => readWf t f c s
  | .readEntryOrder t f c s => readWf t f c s
  | .readEntryRemnant t f c s => readWf t f c s
  | .readEntryStation t f c s => readWf t f c s
  | .readStatus t => fits16 t
  | .clearFlags t => fits16 t
  | .controllerReset t => fits16 t
  | .passthrough t d k p => fits16 t && fits8 d && d != 0 && fits8 k && p.length ≤ 240
  | .unknownRequest t k f => fits16 t && fits8 k && (f == .badRequest || k == 0x50 || k == 0x51)
  | .officeFrameReceived bs => !bs.isEmpty
  | .officeByteGap _ _ => true
  | .officeTransmitDone => true
  | .coldReset _ => true
  | .floorGrant => true
  | .missSilenceEnd => true
  | .answerWindowExpiry _ => true
  | .badAnswer bs => answerEnded bs
  | .cranePollAnswer a x y _ _ ev =>
      fits8 a && fitsCoord x && fitsCoord y && (match ev with | none => true | some (_, n) => n < 32)
  | .gantryPollAnswer a es => fits8 a && es.length ≤ 4 && es.all GantryEvent.wf
  | .answerAck a => fits8 a
  | .answerRefuse a c => fits8 a && fits8 c
  | .passthroughAnswer a k p => fits8 a && fits8 k && p.length ≤ 238
  | .duePollRaise _ => true
  | .positionTimeout _ => true
  | .reportAgeTick => true
  | .officeLengthDrop bs => !bs.isEmpty
  | .resetInputRelease => true

end Sys2Proof
end

