-- ==== Sys2Proof/Decode.lean ====
section
/-! DEFINITION. The bytes of the two lines: byte order, the CRC, the layouts of job records (12.4), of office requests (12.1)
and of floor answers (12.2, 12.3); and `decodeTableWord` over the rows of the table that give bits (none does). -/

namespace Sys2Proof

/-! ## Byte order (R189) -/

/-- The number a list of bytes spells, most significant byte first (R189). -/
def beNat (bs : List Byte) : Nat := bs.foldl (fun n b => n * 256 + b.toNat) 0

/-- The two's-complement integer four bytes spell (R189). -/
def beInt (bs : List Byte) : Int :=
  let n := beNat bs
  if n < 2147483648 then (n : Int) else (n : Int) - 4294967296

/-- `n` in `size` bytes, most significant first (R189). -/
def toBytes : Nat → Nat → List Byte
  | 0, _ => []
  | size + 1, n => BitVec.ofNat 8 (n / 256 ^ size) :: toBytes size n

/-- A signed quantity in four bytes, two's complement (R189). -/
def coordBytes (z : Int) : List Byte := toBytes 4 (z % 4294967296).toNat

/-- The bytes from `offset` on, `size` of them. -/
def slice (bs : List Byte) (offset size : Nat) : List Byte := (bs.drop offset).take size

/-- The unsigned field of `size` bytes at `offset`. -/
def natAt (bs : List Byte) (offset size : Nat) : Nat := beNat (slice bs offset size)

/-- The signed field of four bytes at `offset`. -/
def intAt (bs : List Byte) (offset : Nat) : Int := beInt (slice bs offset 4)

/-- A yes/no field as a byte (R189). -/
def yesNoByte (b : Bool) : Byte := if b then 1 else 0

/-! ## The CRC (R191) -/

/-- One shift of the CRC register. -/
def crcShift (r : BitVec 16) : BitVec 16 := if r.msb then (r <<< 1) ^^^ 0x1021#16 else r <<< 1

/-- The register after one byte: added into the upper eight bits, then eight shifts. -/
def crcByte (r : BitVec 16) (b : Byte) : BitVec 16 :=
  let x := r ^^^ ((b.setWidth 16) <<< 8)
  crcShift (crcShift (crcShift (crcShift (crcShift (crcShift (crcShift (crcShift x)))))))

/-- The CRC of both lines (R191), started at 0xFFFF. -/
def crc16 (bs : List Byte) : BitVec 16 := bs.foldl crcByte 0xFFFF#16

/-- The CRC as it is sent, most significant byte first. -/
def crcBytes (bs : List Byte) : List Byte := toBytes 2 (crc16 bs).toNat

/-! ## Job records (12.4, R40, R195) -/

/-- A plate coordinate u lies in its range (R40). -/
def uOk (u : Nat) : Bool := u ≤ 250000
/-- A plate coordinate v lies in its range (R40). -/
def vOk (v : Nat) : Bool := v ≤ 60000
/-- A segment length lies in its range (R40). -/
def lengthOk (n : Nat) : Bool := 1 ≤ n && n ≤ 4000000

/-- A yes/no byte, when it is one (R189). -/
def yesNo? (n : Nat) : Option Bool := if n = 0 then some false else if n = 1 then some true else none

/-- A plate condition by its code, 0 FRESH, 1 CONTINUATION. -/
def condition? (n : Nat) : Option Condition := if n = 0 then some .fresh else if n = 1 then some .continuation else none

/-- A stock tag by its kind byte and number, which must be at least 1 (00 §6, R40). -/
def tag? (kind num : Nat) : Option Tag :=
  if 1 ≤ num ∧ num ≤ 4294967295 then
    if kind = 1 then some ⟨.mill, num⟩ else if kind = 2 then some ⟨.remnant, num⟩ else none
  else none

/-- The HEADER layout, judged field by field (R40, R195). -/
def parseHeader (bs : List Byte) : Option Record :=
  match tag? (natAt bs 1 1) (natAt bs 2 4), fin? 8 (natAt bs 6 1), condition? (natAt bs 10 1), yesNo? (natAt bs 11 1) with
  | some t, some b, some c, some present =>
      let grade := natAt bs 7 1
      let thickness := natAt bs 8 2
      let width := natAt bs 12 2
      let length := natAt bs 14 2
      if grade ≤ 15 ∧ 30 ≤ thickness ∧ thickness ≤ 1500 then
        if present then
          if 1 ≤ width ∧ width ≤ 24000 ∧ 1 ≤ length ∧ length ≤ 24000 then
            some (.header t b grade thickness c (some (width, length)) (natAt bs 16 2))
          else none
        else some (.header t b grade thickness c none (natAt bs 16 2))
      else none
  | _, _, _, _ => none

/-- The PART layout. -/
def parsePart (bs : List Byte) : Option Record :=
  match yesNo? (natAt bs 1 1) with
  | some req =>
      if natAt bs 2 1 ≤ 2 ∧ uOk (natAt bs 8 4) ∧ vOk (natAt bs 12 4) then
        some (.part (natAt bs 4 4) (natAt bs 8 4) (natAt bs 12 4) req (natAt bs 2 1))
      else none
  | none => none

/-- The PIERCE layout. -/
def parsePierce (bs : List Byte) : Option Record :=
  if natAt bs 1 1 ≤ 7 ∧ uOk (natAt bs 4 4) ∧ vOk (natAt bs 8 4) then
    some (.pierce (natAt bs 4 4) (natAt bs 8 4) (natAt bs 1 1))
  else none

/-- The LINE layout. -/
def parseLine (bs : List Byte) : Option Record :=
  if natAt bs 1 1 ≤ 7 ∧ uOk (natAt bs 4 4) ∧ vOk (natAt bs 8 4) ∧ lengthOk (natAt bs 12 4) then
    some (.line (natAt bs 4 4) (natAt bs 8 4) (natAt bs 1 1) (natAt bs 12 4))
  else none

/-- The ARC layout. -/
def parseArc (bs : List Byte) : Option Record :=
  match yesNo? (natAt bs 2 1) with
  | some ccw =>
      if natAt bs 1 1 ≤ 7 ∧ uOk (natAt bs 4 4) ∧ vOk (natAt bs 8 4) ∧ uOk (natAt bs 12 4) ∧ vOk (natAt bs 16 4)
          ∧ lengthOk (natAt bs 20 4) then
        some (.arc (natAt bs 4 4) (natAt bs 8 4) (natAt bs 12 4) (natAt bs 16 4) ccw (natAt bs 1 1) (natAt bs 20 4))
      else none
  | none => none

/-- The RAPID layout. -/
def parseRapid (bs : List Byte) : Option Record :=
  if uOk (natAt bs 4 4) ∧ vOk (natAt bs 8 4) then some (.rapid (natAt bs 4 4) (natAt bs 8 4)) else none

/-- The record 24 bytes of a JOB WRITE spell, when every listed field lies in its range (check 6 of R39; R195).
A COMPLETION, an unknown kind code or a field out of range answers none. -/
def parseRecord (bs : List Byte) : Option Record :=
  match natAt bs 0 1 with
  | 0 => some .empty
  | 1 => parseHeader bs
  | 3 => parsePart bs
  | 4 => some (.text (slice bs 1 16))
  | 5 => parsePierce bs
  | 6 => parseLine bs
  | 7 => parseArc bs
  | 8 => parseRapid bs
  | 9 => some .endOfJob
  | _ => none

/-- A stock tag in five bytes (12.1). -/
def Tag.bytes (t : Tag) : List Byte := toBytes 1 (match t.kind with | .mill => 1 | .remnant => 2) ++ toBytes 4 t.num

/-- The bytes of a completion record after the kind byte (12.4). -/
def Completion.bytes (c : Completion) : List Byte :=
  toBytes 1 c.outcome.ctorIdx ++ toBytes 2 c.counters.partsCut ++ toBytes 2 c.counters.partsSkipped
    ++ toBytes 2 c.counters.partsUnmarked ++ toBytes 4 c.counters.burnedLength ++ toBytes 2 c.counters.pierces
    ++ toBytes 2 c.counters.pierceRetries ++ toBytes 2 c.counters.referencesTaken ++ toBytes 2 c.counters.lastPart
    ++ toBytes 2 (c.stopRecord.getD 0)

/-- The listed bytes of a record, before the zero bytes that fill it up to 24. -/
def Record.listed : Record → List Byte
  | .empty => toBytes 1 0
  | .header t b g th c d n =>
      toBytes 1 1 ++ t.bytes ++ toBytes 1 b.val ++ toBytes 1 g ++ toBytes 2 th
        ++ toBytes 1 (match c with | .fresh => 0 | .continuation => 1) ++ [yesNoByte d.isSome]
        ++ toBytes 2 (d.getD (0, 0)).1 ++ toBytes 2 (d.getD (0, 0)).2 ++ toBytes 2 n
  | .completion c => toBytes 1 2 ++ c.bytes
  | .part tg u v req n => toBytes 1 3 ++ [yesNoByte req] ++ toBytes 1 n ++ [0] ++ toBytes 4 tg ++ toBytes 4 u ++ toBytes 4 v
  | .text cs => toBytes 1 4 ++ cs.take 16
  | .pierce u v k => toBytes 1 5 ++ toBytes 1 k ++ [0, 0] ++ toBytes 4 u ++ toBytes 4 v
  | .line u v f n => toBytes 1 6 ++ toBytes 1 f ++ [0, 0] ++ toBytes 4 u ++ toBytes 4 v ++ toBytes 4 n
  | .arc u v cu cv ccw f n =>
      toBytes 1 7 ++ toBytes 1 f ++ [yesNoByte ccw] ++ [0] ++ toBytes 4 u ++ toBytes 4 v ++ toBytes 4 cu ++ toBytes 4 cv ++ toBytes 4 n
  | .rapid u v => toBytes 1 8 ++ [0, 0, 0] ++ toBytes 4 u ++ toBytes 4 v
  | .endOfJob => toBytes 1 9

/-- The 24 bytes of a record, as JOB READ returns them (R189: an unlisted byte reads 0). -/
def encodeRecord (r : Record) : List Byte := (r.listed ++ List.replicate 24 0).take 24

/-! ## Office frames (12.1, R176, R178, R191) -/

/-- The frame a good office frame spells: kind, tag, destination, payload. -/
structure OfficeFrame where
  kind        : Nat
  tag         : Nat
  destination : Nat
  payload     : List Byte
  deriving DecidableEq, Repr

/-- The kind codes of the requests (R190). -/
def kJobOpen : Nat := 0x10
def kJobWrite : Nat := 0x11
def kJobRead : Nat := 0x12
def kJobEnqueue : Nat := 0x13
def kJobRelease : Nat := 0x14
def kCompletionAck : Nat := 0x15
def kCompletionAckAndRelease : Nat := 0x16
def kGantryEnable : Nat := 0x20
def kGantryDisable : Nat := 0x21
def kGantryHold : Nat := 0x22
def kGantryRelease : Nat := 0x23
def kPartDecision : Nat := 0x28
def kBedDeclare : Nat := 0x30
def kBedClear : Nat := 0x31
def kCraneOrder : Nat := 0x38
def kCraneOrderCancel : Nat := 0x39
def kRemnantEnter : Nat := 0x40
def kRemnantRemove : Nat := 0x41
def kRemnantRelocate : Nat := 0x42
def kRemnantUnreserve : Nat := 0x43
def kStore : Nat := 0x44
def kRemnantRequest : Nat := 0x45
def kLoadEntry : Nat := 0x50
def kReadEntry : Nat := 0x51
def kReadStatus : Nat := 0x58
def kClearFlags : Nat := 0x59
def kControllerReset : Nat := 0x5F
def kPassthrough : Nat := 0x60

/-- A place of two bytes: the place code and the number (log 9). -/
def placeAt (p : List Byte) (o : Nat) : RawPlace := ⟨natAt p o 1, natAt p (o + 1) 1⟩

/-- A stock tag of five bytes. -/
def tagAt (p : List Byte) (o : Nat) : RawTag := ⟨natAt p o 1, natAt p (o + 1) 4⟩

/-- The records of a JOB WRITE payload: 24 bytes each. -/
def splitRecords : Nat → List Byte → List (List Byte)
  | 0, _ => []
  | n + 1, bs => bs.take 24 :: splitRecords n (bs.drop 24)

/-- The request when its payload has the length of the kind's layout, and BAD_REQUEST otherwise (R178). -/
def sized (f : OfficeFrame) (size : Nat) (c : Instr) : Instr :=
  if f.payload.length = size then c else .unknownRequest f.tag f.kind .badRequest

/-- The LOAD ENTRY frames, by the table named (R182); the field sizes are those of 12.1 (log 9). -/
def decodeLoad (f : OfficeFrame) : Instr :=
  let p := f.payload
  let t := f.tag
  let i := natAt p 1 1
  if p.isEmpty then .unknownRequest t f.kind .badRequest
  else match natAt p 0 1 with
  | 0 => sized f 27 (.loadEntryBed t i (natAt p 2 1) (intAt p 3) (intAt p 7) (intAt p 11) (intAt p 15) (intAt p 19) (intAt p 23))
  | 1 => sized f 28 (.loadEntryGantry t i (natAt p 2 1) (natAt p 3 1) (intAt p 4) (intAt p 8) (intAt p 12) (intAt p 16) (natAt p 20 4)
           (natAt p 24 1) (natAt p 25 1) (natAt p 26 1) (natAt p 27 1))
  | 2 => sized f 8 (.loadEntryCrane t i (natAt p 2 1) (natAt p 3 2) (natAt p 5 2) (natAt p 7 1))
  | 3 => sized f 15 (.loadEntrySlot t i (natAt p 2 1) (intAt p 3) (intAt p 7) (natAt p 11 2) (natAt p 13 2))
  | 4 => sized f 6 (.loadEntryPass t i (natAt p 2 1) (natAt p 3 1) (natAt p 4 1) (natAt p 5 1))
  | 5 => sized f 7 (.loadEntryBand t i (natAt p 2 1) (natAt p 3 2) (natAt p 5 2))
  | 6 => sized f 17 (.loadEntryController t i (natAt p 2 2) (intAt p 4) (intAt p 8) (natAt p 12 2) (natAt p 14 1) (natAt p 15 2))
  | _ => .unknownRequest t f.kind .badTable

/-- The READ ENTRY frames, by the table named (R183). -/
def decodeRead (f : OfficeFrame) : Instr :=
  let p := f.payload
  let t := f.tag
  let i := natAt p 1 1
  let n := natAt p 2 1
  let s := natAt p 3 1
  if p.isEmpty then .unknownRequest t f.kind .badRequest
  else match natAt p 0 1 with
  | 0 => sized f 4 (.readEntryBed t i n s)
  | 1 => sized f 4 (.readEntryGantry t i n s)
  | 2 => sized f 4 (.readEntryCrane t i n s)
  | 3 => sized f 4 (.readEntrySlot t i n s)
  | 4 => sized f 4 (.readEntryPass t i n s)
  | 5 => sized f 4 (.readEntryBand t i n s)
  | 6 => sized f 4 (.readEntryController t i n s)
  | 7 => sized f 4 (.readEntryPresence t i n s)
  | 8 => sized f 4 (.readEntryRegistration t i n s)
  | 9 => sized f 4 (.readEntryJob t i n s)
  | 10 => sized f 4 (.readEntryMark t i n s)
  | 11 => sized f 4 (.readEntryOrder t i n s)
  | 12 => sized f 4 (.readEntryRemnant t i n s)
  | 13 => sized f 4 (.readEntryStation t i n s)
  | _ => .unknownRequest t f.kind .badTable

/-- The request a good office frame spells (R178, R190, R191). -/
def decodeOffice (f : OfficeFrame) : Instr :=
  let p := f.payload
  let t := f.tag
  if f.destination ≠ 0 then .passthrough t f.destination f.kind p
  else match f.kind with
  | 0x10 => sized f 2 (.jobOpen t (natAt p 0 2))
  | 0x11 => sized f (4 + 24 * natAt p 3 1) (.jobWrite t (natAt p 0 1) (natAt p 1 2) (splitRecords (natAt p 3 1) (p.drop 4)))
  | 0x12 => sized f 4 (.jobRead t (natAt p 0 1) (natAt p 1 2) (natAt p 3 1))
  | 0x13 => sized f 2 (.jobEnqueue t (natAt p 0 1) (natAt p 1 1))
  | 0x14 => sized f 1 (.jobRelease t (natAt p 0 1))
  | 0x15 => sized f 0 (.completionAck t)
  | 0x16 => sized f 0 (.completionAckAndRelease t)
  | 0x20 => sized f 1 (.gantryEnable t (natAt p 0 1))
  | 0x21 => sized f 1 (.gantryDisable t (natAt p 0 1))
  | 0x22 => sized f 1 (.gantryHold t (natAt p 0 1))
  | 0x23 => sized f 1 (.gantryRelease t (natAt p 0 1))
  | 0x28 => sized f 4 (.partDecision t (natAt p 0 1) (natAt p 1 2) (natAt p 3 1))
  | 0x30 => sized f 7 (.bedDeclare t (natAt p 0 1) (tagAt p 1) (natAt p 6 1))
  | 0x31 => sized f 1 (.bedClear t (natAt p 0 1))
  | 0x38 => sized f 10 (.craneOrder t (natAt p 0 1) (placeAt p 1) (placeAt p 3) (tagAt p 5))
  | 0x39 => sized f 1 (.craneOrderCancel t (natAt p 0 1))
  | 0x40 => sized f 22 (.remnantEnter t (natAt p 0 1) (natAt p 1 2) (natAt p 3 2) (natAt p 5 2) (natAt p 7 1) (slice p 8 12) (placeAt p 20))
  | 0x41 => sized f 4 (.remnantRemove t (natAt p 0 4))
  | 0x42 => sized f 6 (.remnantRelocate t (natAt p 0 4) (placeAt p 4))
  | 0x43 => sized f 4 (.remnantUnreserve t (natAt p 0 4))
  | 0x44 => sized f 4 (.store t (natAt p 0 4))
  | 0x45 => sized f 11 (.remnantRequest t (natAt p 0 1) (natAt p 1 2) (natAt p 3 2) (natAt p 5 2) (natAt p 7 1) (natAt p 8 1) (natAt p 9 2))
  | 0x50 => decodeLoad f
  | 0x51 => decodeRead f
  | 0x58 => sized f 0 (.readStatus t)
  | 0x59 => sized f 0 (.clearFlags t)
  | 0x5F => sized f 0 (.controllerReset t)
  | k => .unknownRequest t k .badRequest

/-- The receive assembler of R176: hunting, or collecting a frame whose bytes after the start byte are kept, oldest first. -/
inductive Assembler where
  | hunting
  | collecting (bytes : List Byte)
  deriving DecidableEq, Repr

/-- What one byte completes: nothing, a frame dropped, or a good frame. -/
inductive Assembled where
  | nothing
  | dropped
  | frame (f : OfficeFrame)
  deriving DecidableEq, Repr

/-- The start byte of office frames (12.1). -/
def officeStart : Byte := 0xA7

/-- A complete run of bytes after the start byte (length, kind, tag, destination, payload, CRC), judged by its CRC (R176, R191). -/
def judgeOffice (bs : List Byte) : Assembled :=
  let body := bs.take (bs.length - 2)
  if crcBytes body = bs.drop (bs.length - 2) then
    .frame ⟨natAt body 1 1, natAt body 2 2, natAt body 4 1, body.drop 5⟩
  else .dropped

/-- One byte at the assembler (R176, R191): the length byte is judged when it arrives, the frame when its last CRC byte does. -/
def feed (a : Assembler) (b : Byte) : Assembler × Assembled :=
  match a with
  | .hunting => (if b = officeStart then .collecting [] else .hunting, .nothing)
  | .collecting bs =>
      let bs' := bs ++ [b]
      let len := natAt bs' 0 1
      if len < 4 ∨ 244 < len then (.hunting, .dropped)
      else if bs'.length = len + 3 then (.hunting, judgeOffice bs')
      else (.collecting bs', .nothing)

/-- The bytes of an office frame from the length to the end of the payload, and the whole frame with start byte and CRC. -/
def officeBytes (f : OfficeFrame) : List Byte :=
  let body := toBytes 1 (4 + f.payload.length) ++ toBytes 1 f.kind ++ toBytes 2 f.tag ++ toBytes 1 f.destination ++ f.payload
  officeStart :: body ++ crcBytes body

/-! ## Floor answers (12.2, 12.3, R192 to R194) -/

/-- What a station's answer says, once its frame is read. -/
inductive FloorAnswer where
  | ack
  | refuse (code : Nat)
  | position (x y : Int) (hookLow loaded : Bool) (event : Option (OrderEventKind × Nat))
  | events (es : List GantryEvent)
  | other
  deriving DecidableEq, Repr

/-- The start byte of floor frames (12.2). -/
def floorStart : Byte := 0x5A

/-- The payload of a POSITION answer. -/
def positionBytes (x y : Int) (hookLow loaded : Bool) (event : Option (OrderEventKind × Nat)) : List Byte :=
  coordBytes x ++ coordBytes y ++ [yesNoByte hookLow, yesNoByte loaded]
    ++ (match event with | none => [0, 0] | some (k, n) => toBytes 1 (k.ctorIdx + 1) ++ toBytes 1 n)

/-- The order event of a POSITION by its event byte and order number (R193): none when the pair is bad. -/
def orderEvent? (e n : Nat) : Option (Option (OrderEventKind × Nat)) :=
  match e with
  | 0 => if n = 0 then some none else none
  | 1 => if n < 32 then some (some (.picked, n)) else none
  | 2 => if n < 32 then some (some (.placed, n)) else none
  | 3 => if n < 32 then some (some (.aborted, n)) else none
  | _ => none

/-- A POSITION payload, judged by R193. -/
def parsePosition (p : List Byte) : Option FloorAnswer :=
  if p.length = 12 then
    match yesNo? (natAt p 8 1), yesNo? (natAt p 9 1), orderEvent? (natAt p 10 1) (natAt p 11 1) with
    | some h, some l, some ev => some (.position (intAt p 0) (intAt p 4) h l ev)
    | _, _, _ => none
  else none

/-- One event of an event list (R194). -/
def GantryEvent.bytes : GantryEvent → List Byte
  | .registered ox oy k => toBytes 1 1 ++ coordBytes ox ++ coordBytes oy ++ coordBytes k
  | .registerFailed => toBytes 1 2
  | .referenceDone => toBytes 1 3
  | .pierceOk => toBytes 1 4
  | .pierceFailed => toBytes 1 5
  | .segmentsDone n => toBytes 1 6 ++ toBytes 1 n
  | .markDone s ok => toBytes 1 7 ++ toBytes 1 s ++ [if ok then 0 else 1]
  | .stoppedAt r f => toBytes 1 8 ++ toBytes 2 r ++ toBytes 1 f
  | .fault c => toBytes 1 9 ++ toBytes 1 c

/-- The payload of an event list. -/
def eventBytes (es : List GantryEvent) : List Byte := toBytes 1 es.length ++ es.flatMap GantryEvent.bytes

/-- The first event of the bytes and the rest of them (R194): none for an unknown code, a bad result byte or missing bytes. -/
def parseEvent (bs : List Byte) : Option (GantryEvent × List Byte) :=
  let need (n : Nat) (e : GantryEvent) : Option (GantryEvent × List Byte) := if n ≤ bs.length then some (e, bs.drop n) else none
  match natAt bs 0 1 with
  | 1 => need 13 (.registered (intAt bs 1) (intAt bs 5) (intAt bs 9))
  | 2 => need 1 .registerFailed
  | 3 => need 1 .referenceDone
  | 4 => need 1 .pierceOk
  | 5 => need 1 .pierceFailed
  | 6 => need 2 (.segmentsDone (natAt bs 1 1))
  | 7 => if natAt bs 2 1 ≤ 1 then need 3 (.markDone (natAt bs 1 1) (natAt bs 2 1 = 0)) else none
  | 8 => need 4 (.stoppedAt (natAt bs 1 2) (natAt bs 3 1))
  | 9 => need 2 (.fault (natAt bs 1 1))
  | _ => none

/-- `n` events that end exactly at the end of the bytes (R194). -/
def parseEvents : Nat → List Byte → Option (List GantryEvent)
  | 0, bs => if bs.isEmpty then some [] else none
  | n + 1, bs =>
      match parseEvent bs with
      | some (e, rest) => (parseEvents n rest).map (e :: ·)
      | none => none

/-- An event list payload, judged by R194. -/
def parseEventList (p : List Byte) : Option FloorAnswer :=
  if p.isEmpty ∨ 4 < natAt p 0 1 then none else (parseEvents (natAt p 0 1) (p.drop 1)).map .events

/-- What an answer of this kind and payload says (R192). -/
def parseAnswer (kind : Nat) (payload : List Byte) : FloorAnswer :=
  match kind with
  | 0x81 => if payload.isEmpty then .ack else .other
  | 0x82 => if payload.length = 1 then .refuse (natAt payload 0 1) else .other
  | 0x83 => (parsePosition payload).getD .other
  | 0x84 => (parseEventList payload).getD .other
  | _ => .other

/-- An answer as it stands on the line: address, kind and payload. -/
structure AnswerFrame where
  address : Nat
  kind    : Nat
  payload : List Byte
  deriving DecidableEq, Repr

/-- The answer the received bytes spell, when length and CRC are right (R163, R192). It ends with the last of the length + 2 bytes after
the length byte; bytes behind it arrive with no transaction in flight and are discarded (R163). A first byte that is not the start
byte spells no answer (log 40). -/
def parseFloorFrame (bytes : List Byte) : Option AnswerFrame :=
  match bytes with
  | [] => none
  | start :: bs =>
      let len := natAt bs 0 1
      let body := bs.take (len + 1)
      if start = floorStart ∧ 2 ≤ len ∧ len ≤ 240 ∧ len + 3 ≤ bs.length ∧ crcBytes body = slice bs (len + 1) 2 then
        some ⟨natAt body 1 1, natAt body 2 1, body.drop 3⟩
      else none

/-- The bytes of a floor frame (12.2). -/
def floorBytes (address kind : Nat) (payload : List Byte) : List Byte :=
  let body := toBytes 1 (2 + payload.length) ++ toBytes 1 address ++ toBytes 1 kind ++ payload
  floorStart :: body ++ crcBytes body

/-! ## The opcode table -/

/-- No row of spec/opcode_table.json gives bits, so no word spells a command (log 25). -/
def decodeTableWord (_nbits _w : Nat) : Option Instr := none

end Sys2Proof
end

