-- ==== Sys2Proof/Machine/State.lean ====
section
/-! DEFINITION. The state of the part: the records of the nine blocks, the hand-offs still to run inside a command, and the
queue of waiting commands. All of it is plain data. -/

namespace Sys2Proof.Machine

/-! ## Numbers of the hall (00 §6) -/

abbrev Gantry := Fin 4
abbrev Crane := Fin 2
abbrev Bed := Fin 8
abbrev SlotNo := Fin 24
abbrev OrderNo := Fin 32
abbrev JobNo := Fin 64
/-- A floor station, index 0 to 5 for G0, G1, G2, G3, C0, C1 (R162). -/
abbrev Station := Fin 6

/-! ## Hall Map (chapters 1 and 2) -/

/-- A rectangle of hall coordinates, ends included. -/
structure Rect where
  xLo : Int
  xHi : Int
  yLo : Int
  yHi : Int
  deriving DecidableEq, Repr

/-- A point of the hall. -/
structure Point where
  x : Int
  y : Int
  deriving DecidableEq, Repr

/-- The content an order expects of a bed it asks for (R7). -/
inductive Expect where
  | plate (t : Tag)
  | skeleton
  | empty
  deriving DecidableEq, Repr

/-- One requester of a bed: a gantry or an order number (R8). -/
inductive Requester where
  | gantry (g : Gantry)
  | order (n : OrderNo)
  deriving DecidableEq, Repr

/-- A burn request (no expectation) or a claim request, with every bed it names (R7). -/
inductive BedRequest where
  | burn (g : Gantry) (b : Bed)
  | claim (n : OrderNo) (beds : List (Bed × Expect))
  deriving DecidableEq, Repr

/-- A bed record (R1). -/
structure BedRec where
  loaded    : Bool := false
  rect      : Option Rect := none
  origin    : Option Point := none
  plate     : Option Tag := none
  skeleton  : Bool := false
  partlyCut : Bool := false
  owner     : Option Gantry := none
  claim     : Option OrderNo := none
  waiting   : List BedRequest := []
  deriving DecidableEq, Repr

/-- The three states of a crane (R17). -/
inductive CraneState where
  | uninstalled | lost | tracking
  deriving DecidableEq, Repr

/-- The content of a crane's last position, as clamped (R17, R21). -/
structure Report where
  x       : Int
  y       : Int
  hookLow : Bool
  loaded  : Bool
  deriving DecidableEq, Repr

/-- A crane record (R17). -/
structure CraneRec where
  installed : Bool := false
  margin    : Nat := 0
  timeout   : Nat := 500
  rack      : Bool := false
  state     : CraneState := .uninstalled
  last      : Option Report := none
  age       : Nat := 0
  duePoll   : Bool := false
  deriving DecidableEq, Repr

/-- The states of a presence record (R20). -/
inductive PresenceState where
  | absent | present | clearing
  deriving DecidableEq, Repr

/-- A presence record: its state and steady count (R20). -/
structure Presence where
  state : PresenceState := .absent
  count : Nat := 0
  deriving DecidableEq, Repr

/-- A thickness band entry (R14). -/
structure Band where
  loaded : Bool := false
  bound  : Nat := 0
  margin : Nat := 0
  deriving DecidableEq, Repr

/-- The Hall Map: beds, cranes, presence records at index crane × 8 + bed (R20), extent, bands. -/
structure HallMap where
  beds       : Vector BedRec 8 := Vector.replicate 8 {}
  cranes     : Vector CraneRec 2 := Vector.replicate 2 {}
  presences  : Vector Presence 16 := Vector.replicate 16 {}
  hallLength : Int := 3000000
  hallWidth  : Int := 600000
  bands      : Vector Band 8 := put (Vector.replicate 8 {}) 0 ⟨true, 1500, 0⟩
  deriving DecidableEq, Repr

/-! ## Job Store (chapter 3) -/

/-- The states of a job number (R36). -/
inductive JobState where
  | free | opened | queued | active | completed
  deriving DecidableEq, Repr

/-- A job table entry (R36). -/
structure JobEntry where
  state        : JobState := .free
  gantry       : Option Gantry := none
  pages        : List Nat := []
  inCompletion : Bool := false
  deriving DecidableEq, Repr

/-- The record memory: (address, record) pairs, address = 16 × page + place, strictly rising, none of them EMPTY (R34, log 12). -/
abbrev RecMem := List (Nat × Record)

/-- The Job Store (R34 to R36, R44, R50). -/
structure JobStore where
  mem         : RecMem := []
  pool        : List Nat := List.range 1024
  jobs        : Vector JobEntry 64 := Vector.replicate 64 {}
  queues      : Vector (List JobNo) 4 := Vector.replicate 4 []
  completions : List JobNo := []
  deriving DecidableEq, Repr

/-! ## Burn Dispatcher (chapters 4, 5, 6) -/

/-- The measured values of a valid registration; the record is the option, absent when not valid (R54). -/
structure Registration where
  bed   : Bed
  plate : Tag
  ox    : Int
  oy    : Int
  k     : Int
  deriving DecidableEq, Repr

/-- Which MARK notices a gantry gives (R68, R107). -/
inductive NoticeMode where
  | none | each | batch
  deriving DecidableEq, Repr

/-- A gantry's parameter entry (R68). -/
structure GantryParams where
  loaded      : Bool := false
  reach       : List Bed := []
  window      : Rect := ⟨0, 0, 0, 0⟩
  period      : Nat := 0
  retryLimit  : Nat := 0
  autoRelease : Bool := false
  mode        : NoticeMode := .none
  depth       : Nat := 0
  deriving DecidableEq, Repr

/-- The eleven states of a dispatch engine (R66). -/
inductive EngineState where
  | off | init | idle | register | mark | reference | pierce | cut | stopped | held | fault
  deriving DecidableEq, Repr

/-- The stored held reasons of an engine (R67). -/
structure Held where
  office       : Bool := false
  cranePresent : Bool := false
  markDecision : Bool := false
  deriving DecidableEq, Repr

/-- The engine's bed request (R65). -/
inductive BedAsk where
  | none | waiting | owner
  deriving DecidableEq, Repr

/-- What the engine does when its references are done (R65, R81). -/
inductive RefReturn where
  | boundary | pierce
  deriving DecidableEq, Repr

/-- A dispatch engine (R65, R97). `pendingStop` is the stop record index that R86 sets with the pending outcome, and
`chainDone` says that a segment sent after the chain pierce has been reported done (R89; log 16). -/
structure Engine where
  state          : EngineState := .off
  held           : Held := {}
  job            : Option JobNo := none
  bedRequest     : BedAsk := .none
  nextRecord     : Option Nat := none
  chainPierce    : Option Nat := none
  outstanding    : List Nat := []
  credit         : Nat := 0
  retryCount     : Nat := 0
  stopPoint      : Option (Nat × Nat) := none
  pendingOutcome : Option JobOutcome := none
  pendingStop    : Option Nat := none
  refReturn      : Option RefReturn := none
  idleReference  : Bool := false
  counters       : Counters := {}
  partUnmarked   : Bool := false
  chainDone      : Bool := false
  accumulator    : Nat := 0
  backlog        : Nat := 3
  deriving DecidableEq, Repr

/-- The Burn Dispatcher: engines, registration records, parameter entries. -/
structure BurnDispatcher where
  engines       : Vector Engine 4 := Vector.replicate 4 {}
  registrations : Vector (Option Registration) 4 := Vector.replicate 4 none
  params        : Vector GantryParams 4 := Vector.replicate 4 {}
  deriving DecidableEq, Repr

/-! ## Mark Sequencer (chapter 7) -/

/-- The mark status of a part (R107). -/
inductive MarkStatus where
  | none | queued | sent | good | unmarked | failed | skip | retry
  deriving DecidableEq, Repr

/-- An entry of the mark list (R107). -/
structure MarkEntry where
  index    : Nat
  partTag  : Nat
  u        : Nat
  v        : Nat
  required : Bool
  text     : List Byte
  status   : MarkStatus
  deriving DecidableEq, Repr

/-- A full mark slot; the job number is absent once that job has ended (R107, R118). -/
structure MarkSlot where
  job       : Option JobNo
  part      : Nat
  sendOrder : Nat
  deriving DecidableEq, Repr

/-- The mark phase running for a gantry (R107). -/
inductive MarkPhase where
  | none | first | retry
  deriving DecidableEq, Repr

/-- A gantry's mark context (R107). -/
structure MarkContext where
  slots       : Vector (Option MarkSlot) 4 := Vector.replicate 4 none
  marks       : List MarkEntry := []
  sendList    : List Nat := []
  unresolved  : List Nat := []
  phase       : MarkPhase := .none
  sendCounter : Nat := 0
  okCount     : Nat := 0
  failCount   : Nat := 0
  underflow   : Bool := false
  mode        : NoticeMode := .none
  deriving DecidableEq, Repr

/-! ## Crane Order Unit (chapter 8) -/

/-- A place of an order (R121); INFEED and OUTFEED and HOOK have no number. -/
inductive Place where
  | bed (b : Bed) | slot (k : SlotNo) | infeed | outfeed | hook
  deriving DecidableEq, Repr

/-- What an order carries (R121). -/
inductive Load where
  | plate (t : Tag) | skeleton
  deriving DecidableEq, Repr

/-- Who placed an order (R121). -/
inductive OrderOrigin where
  | office | stock
  deriving DecidableEq, Repr

/-- The states of an order (R121, R122). -/
inductive OrderState where
  | queued | held | sent | picked | done | aborted | cancelled
  deriving DecidableEq, Repr

/-- The held reasons of an order (R121). -/
structure OrderHeld where
  crane      : Bool := false
  load       : Bool := false
  hookEmpty  : Bool := false
  sourceBed  : Bool := false
  destBed    : Bool := false
  sourceSlot : Bool := false
  destSlot   : Bool := false
  deriving DecidableEq, Repr

/-- What aborted an order (R121). -/
inductive OrderCause where
  | refuse (code : Nat)
  | crane
  deriving DecidableEq, Repr

/-- The states of a remnant record (R139). -/
inductive RemnantState where
  | free | reserved | inTransit
  deriving DecidableEq, Repr

/-- An order record in use; its number is its index (R121). -/
structure Order where
  crane       : Crane
  origin      : OrderOrigin
  source      : Place
  destination : Place
  load        : Load
  requestTag  : Option Nat
  state       : OrderState := .queued
  held        : OrderHeld := {}
  waiting     : Bool := false
  sourceClaim : Bool := false
  destClaim   : Bool := false
  prior       : Option RemnantState := none
  answered    : Bool := false
  cause       : Option OrderCause := none
  deriving DecidableEq, Repr

/-- The Crane Order Unit (R121, R122). -/
structure OrderUnit where
  orders : Vector (Option Order) 32 := Vector.replicate 32 none
  queues : Vector (List OrderNo) 2 := Vector.replicate 2 []
  deriving DecidableEq, Repr

/-! ## Remnant Stock Unit (chapter 9) -/

/-- Where a remnant lies (R139). -/
inductive Location where
  | slot (k : SlotNo) (level : Nat) | bed (b : Bed) | hook (c : Crane) | unknown
  deriving DecidableEq, Repr

/-- A remnant record; `origin` absent stands for MANUAL (R139). -/
structure Remnant where
  number      : Nat
  grade       : Nat
  thickness   : Nat
  width       : Nat
  length      : Nat
  heat        : Option (List Byte) := none
  origin      : Option Tag := none
  location    : Location
  state       : RemnantState := .free
  reservation : Option Nat := none
  restack     : List OrderNo := []
  deriving DecidableEq, Repr

/-- A rack slot entry; the position and the two maxima are present together (R140). -/
structure SlotRec where
  loaded   : Bool := false
  position : Option Point := none
  maxima   : Option (Nat × Nat) := none
  stack    : List Nat := []
  claim    : Option OrderNo := none
  deriving DecidableEq, Repr

/-- The Remnant Stock Unit (R139, R140, R142, R12). -/
structure Stock where
  remnants   : List Remnant := []
  slots      : Vector SlotRec 24 := Vector.replicate 24 {}
  sequence   : Nat := 0
  digPenalty : Nat := 200
  digReserve : Nat := 2
  minSize    : Nat := 300
  deriving DecidableEq, Repr

/-! ## Floor Port (chapter 10) -/

/-- How a miss came about (R162). -/
inductive MissCause where
  | silent | badAnswer
  deriving DecidableEq, Repr

/-- A station entry (R162). -/
structure StationRec where
  misses : Nat := 0
  lost   : Bool := false
  cause  : Option MissCause := none
  deriving DecidableEq, Repr

/-- The pass table's actions (R173). -/
inductive PassAction where
  | forward | block | forwardWhenOff
  deriving DecidableEq, Repr

/-- A pass table entry (R173). -/
structure PassRec where
  diagnostic : PassAction := .forward
  parameter  : PassAction := .block
  motion     : PassAction := .block
  io         : PassAction := .block
  deriving DecidableEq, Repr

/-- The four passthrough classes (chapter 10.5). -/
inductive PassClass where
  | diagnostic | parameter | motion | io
  deriving DecidableEq, Repr

/-- Who asked for an ARC STOP, which decides who takes its answer (R86, R172; log 19). -/
inductive ArcStopFor where
  | warmReset | engine | travel
  deriving DecidableEq, Repr

/-- The SEGMENT payload (12.2). -/
inductive SegmentBody where
  | line (endPoint : Point) (feed length : Nat)
  | arc (endPoint centre : Point) (ccw : Bool) (feed length : Nat)
  | rapid (endPoint : Point)
  deriving DecidableEq, Repr

/-- A place as the ORDER frame carries it, with its hall position (R129). -/
structure PlaceOnFloor where
  place    : Place
  position : Option Point
  deriving DecidableEq, Repr

/-- The frames the controller sends on the floor line (12.2). -/
inductive FloorFrame where
  | poll (due : Bool)
  | init (window : Rect) (retryLimit depth period : Nat) (mode : NoticeMode)
  | register (bed : Bed) (origin : Option Point)
  | reference
  | pierce (record : Nat) (at_ : Point) (current : Nat)
  | segment (record : Nat) (body : SegmentBody)
  | resume (record : Nat) (body : SegmentBody) (fraction : Nat)
  | arcStop (for_ : ArcStopFor)
  | markText (slot : Fin 4) (at_ : Point) (text : List Byte)
  | order (n : OrderNo) (source destination : PlaceOnFloor) (load : Load)
  | orderCancel (n : OrderNo)
  | pass (cls : PassClass) (payload : List Byte)
  deriving DecidableEq, Repr

/-- A frame requested of the Floor Port, with the station it goes to (R167). -/
structure FloorRequest where
  station : Station
  frame   : FloorFrame
  deriving DecidableEq, Repr

/-- The transaction in flight and the answer window it was sent with (R163). -/
structure Transaction where
  request : FloorRequest
  window  : Nat
  deriving DecidableEq, Repr

/-- The kind of the next rotation turn (R169). -/
inductive Turn where
  | crane | gantry
  deriving DecidableEq, Repr

/-- The Floor Port. `pending` is in the order of the requests, a missed and kept frame first (R164, R167). -/
structure FloorPort where
  stations     : Vector StationRec 6 := Vector.replicate 6 {}
  inFlight     : Option Transaction := none
  silence      : Bool := false
  pending      : List FloorRequest := []
  lastCommand  : Gantry := 3
  lastMark     : Gantry := 3
  turn         : Turn := .crane
  nextCrane    : Crane := 0
  nextGantry   : Gantry := 0
  passTable    : Vector PassRec 6 := Vector.replicate 6 {}
  passHeld     : Option Nat := none
  answerWindow : Nat := 4
  deriving DecidableEq, Repr

/-! ## Office Port (chapter 11) -/

/-- The reason codes, in the order of R179. -/
inductive Reason where
  | ok | badRequest | badTable | badIndex | badField | badJob | badOffset | inUse | state | noMemory | noNumber | queueFull
  | full | notFound | noFit | rackFull | blocked | busy | noAnswer
  deriving DecidableEq, Repr

/-- The held reasons as READ STATUS and GANTRY_STATE report them, BED_CLAIMED among them (R67). -/
structure ReportedHeld where
  stored     : Held
  bedClaimed : Bool := false
  deriving DecidableEq, Repr

/-- The causes of a GANTRY_STATE notice (R95). -/
inductive StateCause where
  | arrival | travel | markDecision | arcFail | machine | link | init
  deriving DecidableEq, Repr

/-- What made a crane LOST (R31). -/
inductive LossCause where
  | timeout | station
  deriving DecidableEq, Repr

/-- Why a remnant could not be made (R147). -/
inductive TableFullCause where
  | table | sequence
  deriving DecidableEq, Repr

/-- The notices, in the order of R181. -/
inductive Notice where
  | completionPending (job : JobNo) (outcome : JobOutcome)
  | queueEmpty (g : Gantry)
  | gantryState (g : Gantry) (state : EngineState) (held : ReportedHeld) (job : Option JobNo) (lastPart : Nat) (cause : StateCause)
      (code : Option Nat) (stopRecord : Option Nat)
  | markEach (g : Gantry) (job : Option JobNo) (part partTag : Nat) (slot : Fin 4) (sendOrder : Nat) (ok required : Bool) (after : MarkStatus)
  | markBatch (g : Gantry) (job : Option JobNo) (phase : MarkPhase) (ok failed unresolved : Nat)
  | craneOrder (n : OrderNo) (crane : Crane) (origin : OrderOrigin) (source destination : Place) (load : Load) (endState : OrderState)
      (cause : Option OrderCause) (requestTag : Option Nat)
  | craneLost (crane : Crane) (cause : LossCause) (age : Nat)
  | craneFound (crane : Crane) (report : Report)
  | stationLost (address : Nat) (cause : Option MissCause) (kind : Nat)
  | stationFound (address : Nat)
  | remnantCreated (number : Nat) (bed : Bed) (grade thickness width length : Nat) (origin : Tag)
  | remnantTableFull (bed : Bed) (plate : Tag) (width length : Nat) (cause : TableFullCause)
  deriving DecidableEq, Repr

/-- One entry of a READ ENTRY reply, as it stands when the reply is built (R183). -/
inductive Entry where
  | bed (b : Bed) (r : BedRec)
  | gantry (g : Gantry) (params : Option GantryParams) (accumulator backlog : Nat)
  | crane (c : Crane) (r : CraneRec)
  | slot (k : SlotNo) (r : SlotRec) (committed : Nat)
  | pass (s : Station) (r : PassRec)
  | band (i : Fin 8) (r : Band)
  | controller (window : Nat) (hallLength hallWidth : Int) (digPenalty digReserve minimumSize : Nat)
  | presence (i : Fin 16) (r : Presence)
  | registration (g : Gantry) (r : Option Registration)
  | job (j : JobNo) (state : JobState) (gantry : Option Gantry) (pageCount : Nat) (pages : List Nat) (position : Option Nat)
  | mark (g : Gantry) (slots : List (Option MarkSlot)) (phase : MarkPhase) (sendList unresolved : List Nat) (underflow : Bool) (mode : NoticeMode)
  | order (n : OrderNo) (r : Option Order) (position : Option Nat)
  | remnant (position : Nat) (r : Remnant)
  | station (s : Station) (r : StationRec) (eligible : Bool)
  deriving DecidableEq, Repr

/-- What READ STATUS says of one gantry (R184). -/
structure GantryStatus where
  state       : EngineState
  held        : ReportedHeld
  queueLength : Nat
  backlog     : Nat
  underflow   : Bool
  deriving DecidableEq, Repr

/-- The READ STATUS reply (R184). -/
structure StatusReport where
  gantries       : List GantryStatus
  cranes         : List CraneState
  freePages      : Nat
  freeJobs       : Nat
  completionHead : Option JobNo
  freeRackPlaces : Nat
  noticeLost     : Bool
  deriving DecidableEq, Repr

/-- The fields of an OK reply, as the owning rule names them (R179). -/
inductive ReplyBody where
  | none
  | jobOpened (job : JobNo) (pages : Nat)
  | records (rs : List Record)
  | enqueued (position : Nat)
  | acknowledged (job : JobNo) (left : Nat) (head : Option JobNo)
  | released (job : JobNo) (record : Record) (left : Nat) (head : Option JobNo)
  | orderPlaced (n : OrderNo) (position : Nat)
  | remnantNumber (n : Nat)
  | stored (n : OrderNo) (k : SlotNo)
  | found (number : Nat) (location : Location) (score : Nat) (rotated : Bool) (orders : List OrderNo)
  | entries (header : Option (Nat × Nat)) (es : List Entry)
  | status (r : StatusReport)
  | answer (kind : Nat) (payload : List Byte)
  deriving DecidableEq, Repr

/-- A reply: the request's kind and tag, the reason code and, for OK, the fields (R179). `kept` marks the place kept for a
passthrough's reply (R180). -/
structure Reply where
  kind : Nat
  tag  : Nat
  code : Reason
  body : ReplyBody := .none
  kept : Bool := false
  deriving DecidableEq, Repr

/-- What the office transmitter is sending (R180). -/
inductive OutFrame where
  | reply (r : Reply)
  | notice (sequence : Nat) (n : Notice)
  deriving DecidableEq, Repr

/-- The Office Port (chapter 11). The waiting place holds the request that the waiting frame spells (log 3). -/
structure OfficePort where
  assembler  : Assembler := .hunting
  waiting    : Option Instr := none
  replies    : List Reply := []
  sending    : Option OutFrame := none
  notices    : List (Nat × Notice) := []
  noticeLost : Bool := false
  sequence   : Nat := 0
  resetHeld  : Bool := false
  deriving DecidableEq, Repr

/-! ## Hand-offs inside a command (log 6) -/

/-- The state an engine enters at a job end, with the cause and code of a FAULT (R93). -/
inductive EndTo where
  | idle
  | off
  | fault (cause : StateCause) (code : Option Nat)
  deriving DecidableEq, Repr

/-- What a job end hands on from block to block (R94). -/
structure JobEnding where
  job       : JobNo
  bed       : Bed
  plate     : Tag
  grade     : Nat
  thickness : Nat
  declared  : Option (Nat × Nat)
  outcome   : JobOutcome
  partsCut  : Nat
  stop      : Option Nat
  goes      : EndTo
  deriving DecidableEq, Repr

/-- The hand-offs between the blocks inside one command. Each names the rule that takes it. -/
inductive Task where
  /-- The Hall Map offers a bed to its waiting list (R9). -/
  | offer (b : Bed)
  /-- The new content of a bed is reported to the Crane Order Unit (R4, R128). -/
  | contentReport (b : Bed)
  /-- The burn owner of a bed is released and the bed offered (R9, R94). -/
  | releaseOwner (b : Bed)
  /-- The crane claim of a bed is released and the bed offered (R9). -/
  | releaseClaim (b : Bed)
  /-- A change of a crane's state is reported to the Crane Order Unit (R32, R137). -/
  | craneReport (c : Crane)
  /-- The head of a crane's queue is evaluated (R128). -/
  | evalHead (c : Crane)
  /-- The head of a crane's queue is evaluated when it is not the head that stood there before (R135). -/
  | evalNewHead (c : Crane) (before : Option OrderNo)
  /-- The head orders that name a slot are evaluated (R128, R144). -/
  | slotReport (k : SlotNo)
  /-- The head orders that carry a remnant are evaluated (R128, R144). -/
  | remnantReport (number : Nat)
  /-- The beds of an order have been granted to it (R129). -/
  | orderGranted (n : OrderNo)
  /-- A bed has been granted to a gantry (R74). -/
  | gantryGranted (g : Gantry)
  /-- An IDLE engine takes up its queue head (R74). -/
  | takeUp (g : Gantry)
  /-- An IDLE engine with a backlog requests an idle reference (R104). -/
  | idleReference (g : Gantry)
  /-- A job whose bed is held starts (R75). -/
  | startJob (g : Gantry)
  /-- A job ends: the completion record and the Job Store's part (R94, step 1). -/
  | jobEnd (g : Gantry) (outcome : JobOutcome) (stop : Option Nat) (goes : EndTo)
  /-- The Remnant Stock Unit's part of a job end (R94, step 2). -/
  | settleStock (g : Gantry) (e : JobEnding)
  /-- The Hall Map's job-end change (R94, step 3; R5). -/
  | bedJobEnd (e : JobEnding) (remnant : Option Nat)
  /-- The Mark Sequencer is told that the job has ended (R94, step 5; R118). -/
  | markJobEnd (g : Gantry)
  /-- The engine clears its job fields and enters the state of R93 (R94, step 6). -/
  | engineEnd (g : Gantry) (e : JobEnding)
  /-- GANTRY DISABLE's last steps: the mark context is emptied and the engine enters OFF (R72, R119). -/
  | finishDisable (g : Gantry)
  /-- The Mark Sequencer sends what its slots allow, or ends the phase (R109, R113). -/
  | markPump (g : Gantry)
  /-- The engine is at a part boundary; `entry` when it comes to it and does not merely evaluate it again in HELD (R79, R80). -/
  | boundary (g : Gantry) (entry : Bool)
  /-- The engine in CUT reads the next record (R84). -/
  | stream (g : Gantry)
  /-- The engine prepares a pierce (R82). -/
  | preparePierce (g : Gantry)
  /-- A crane comes over the bed the engine owns (R25, R87). -/
  | arrival (g : Gantry)
  /-- The bed the engine owns is clear (R26, R80, R90). -/
  | clearance (g : Gantry)
  /-- A job ends MACHINE, or a gantry without a job fails, with the code (R91). -/
  | machine (g : Gantry) (code : Nat) (arcStop : Bool)
  /-- The gantry's station has become LOST (R92). -/
  | engineLost (g : Gantry)
  /-- The crane's station has become LOST (R29). -/
  | craneStationLost (c : Crane)
  /-- An order ends (R135); `cascade` when it is cancelled by the end of another (R160). -/
  | orderEnd (n : OrderNo) (endState : OrderState) (cause : Option OrderCause) (cascade : Bool)
  /-- The Remnant Stock Unit is told the end of an order of its own (R160). -/
  | stockTold (n : OrderNo) (endState : OrderState)
  /-- The Remnant Stock Unit asks for an order to be cancelled (R160). -/
  | cancelRestack (n : OrderNo)
  /-- PICKED of an order (R131). -/
  | picked (n : OrderNo)
  /-- PLACED of an order (R132). -/
  | placed (n : OrderNo)
  /-- A remnant record takes a location and a state, as far as given (R143). -/
  | remnantSet (number : Nat) (location : Option Location) (state : Option RemnantState)
  /-- A remnant record is removed (R143). -/
  | remnantGone (number : Nat)
  /-- A gantry's event is delivered (R171). -/
  | gantryEvent (g : Gantry) (e : GantryEvent)
  /-- A crane's order event is delivered (R170). -/
  | orderEvent (c : Crane) (k : OrderEventKind) (n : OrderNo)
  /-- A notice is handed to the Office Port (R181). -/
  | notice (n : Notice)
  deriving DecidableEq, Repr

/-! ## The part and the machine -/

/-- The nine blocks (the Transform Unit holds nothing, R64) and the hand-offs still to run. -/
structure Part where
  hmp    : HallMap := {}
  jst    : JobStore := {}
  bds    : BurnDispatcher := {}
  mks    : Vector MarkContext 4 := Vector.replicate 4 {}
  cou    : OrderUnit := {}
  rsu    : Stock := {}
  flp    : FloorPort := {}
  ofp    : OfficePort := {}
  agenda : List Task := []
  deriving DecidableEq, Repr

/-- The faults of the machine: none. No rule of the spec stops the part, so no meaning answers a fault. -/
inductive Fault where
  deriving DecidableEq, Repr

/-- The refusals of the machine. -/
inductive Refusal where
  /-- An arm of `exec` that has no meaning yet (safe: the model stops). Raised by `exec` alone; no arm does. -/
  | notModelled (mnemonic : String)
  deriving DecidableEq, Repr

end Sys2Proof.Machine

namespace Sys2Proof.Machine

/-- The whole state: the part, and the commands that wait, first in, first out. -/
structure State where
  part    : Part := {}
  pending : List Instr := []
  deriving DecidableEq, Repr

/-- The part right after a cold reset: every field at the value its rule gives (R1, R12, R14, R17, R20, R35, R36, R54, R65, R68,
R98, R107, R121, R122, R139, R140, R142, R162, R168, R169, R173, R187), and log 12 where none does. -/
def Part.cold : Part := {}

/-- The machine right after reset: the part's cold reset values, no command waiting. -/
def State.reset : State := { part := Part.cold, pending := [] }

end Sys2Proof.Machine
end

