-- ==== Sys2Proof/Machine/Ops.lean ====
section
/-! DEFINITION. The named operations over the records of the part: reading and replacing one record, handing on inside a
command, giving a notice, requesting and withdrawing floor frames, the record memory. -/

namespace Sys2Proof.Machine

/-! ## Numbers -/

/-- The eight beds, the four gantries, the two cranes, the 24 slots, in order. -/
def allBeds : List Bed := [0, 1, 2, 3, 4, 5, 6, 7]
def allGantries : List Gantry := [0, 1, 2, 3]
def allCranes : List Crane := [0, 1]
def allSlots : List SlotNo := List.ofFn id
def allOrders : List OrderNo := List.ofFn id
def allJobs : List JobNo := List.ofFn id

/-- The other crane. -/
def otherCrane (c : Crane) : Crane := if c = 0 then 1 else 0

/-- The gantry after `g` in the cyclic order G0, G1, G2, G3 (R168). -/
def nextGantryOf (g : Gantry) : Gantry := ⟨(g.val + 1) % 4, Nat.mod_lt _ (by decide)⟩

/-- The station of a gantry (R162). -/
def gantryStation (g : Gantry) : Station := ⟨g.val, by omega⟩
/-- The station of a crane (R162). -/
def craneStation (c : Crane) : Station := ⟨c.val + 4, by omega⟩
/-- The gantry of a station, when it is one. -/
def stationGantry? (s : Station) : Option Gantry := fin? 4 s.val
/-- The crane of a station, when it is one. -/
def stationCrane? (s : Station) : Option Crane := if s.val < 4 then none else fin? 2 (s.val - 4)
/-- The floor address of a station: 1, 2, 3, 4, 8, 9 (00 §6, R162). -/
def stationAddress (s : Station) : Nat := if s.val < 4 then s.val + 1 else s.val + 4
/-- The station of a floor address (R174). -/
def addressStation? (a : Nat) : Option Station :=
  if 1 ≤ a ∧ a ≤ 4 then fin? 6 (a - 1) else if a = 8 ∨ a = 9 then fin? 6 (a - 4) else none

/-- The index of the presence record of crane `c` on bed `b` (R20). -/
def presenceIx (c : Crane) (b : Bed) : Fin 16 := ⟨c.val * 8 + b.val, by omega⟩

/-! ## Reading and replacing one record -/

def Part.bed (p : Part) (b : Bed) : BedRec := look p.hmp.beds b
def Part.setBed (p : Part) (b : Bed) (r : BedRec) : Part := { p with hmp := { p.hmp with beds := put p.hmp.beds b r } }

def Part.crane (p : Part) (c : Crane) : CraneRec := look p.hmp.cranes c
def Part.setCrane (p : Part) (c : Crane) (r : CraneRec) : Part := { p with hmp := { p.hmp with cranes := put p.hmp.cranes c r } }

def Part.presence (p : Part) (c : Crane) (b : Bed) : Presence := look p.hmp.presences (presenceIx c b)
def Part.setPresence (p : Part) (c : Crane) (b : Bed) (r : Presence) : Part :=
  { p with hmp := { p.hmp with presences := put p.hmp.presences (presenceIx c b) r } }

def Part.job (p : Part) (j : JobNo) : JobEntry := look p.jst.jobs j
def Part.setJob (p : Part) (j : JobNo) (r : JobEntry) : Part := { p with jst := { p.jst with jobs := put p.jst.jobs j r } }

def Part.queue (p : Part) (g : Gantry) : List JobNo := look p.jst.queues g
def Part.setQueue (p : Part) (g : Gantry) (q : List JobNo) : Part := { p with jst := { p.jst with queues := put p.jst.queues g q } }

def Part.engine (p : Part) (g : Gantry) : Engine := look p.bds.engines g
def Part.setEngine (p : Part) (g : Gantry) (e : Engine) : Part := { p with bds := { p.bds with engines := put p.bds.engines g e } }

def Part.registration (p : Part) (g : Gantry) : Option Registration := look p.bds.registrations g
def Part.setRegistration (p : Part) (g : Gantry) (r : Option Registration) : Part :=
  { p with bds := { p.bds with registrations := put p.bds.registrations g r } }

def Part.params (p : Part) (g : Gantry) : GantryParams := look p.bds.params g
def Part.setParams (p : Part) (g : Gantry) (r : GantryParams) : Part := { p with bds := { p.bds with params := put p.bds.params g r } }

def Part.marks (p : Part) (g : Gantry) : MarkContext := look p.mks g
def Part.setMarks (p : Part) (g : Gantry) (m : MarkContext) : Part := { p with mks := put p.mks g m }

def Part.order (p : Part) (n : OrderNo) : Option Order := look p.cou.orders n
def Part.setOrder (p : Part) (n : OrderNo) (o : Option Order) : Part := { p with cou := { p.cou with orders := put p.cou.orders n o } }

def Part.orderQueue (p : Part) (c : Crane) : List OrderNo := look p.cou.queues c
def Part.setOrderQueue (p : Part) (c : Crane) (q : List OrderNo) : Part := { p with cou := { p.cou with queues := put p.cou.queues c q } }

def Part.slot (p : Part) (k : SlotNo) : SlotRec := look p.rsu.slots k
def Part.setSlot (p : Part) (k : SlotNo) (r : SlotRec) : Part := { p with rsu := { p.rsu with slots := put p.rsu.slots k r } }

def Part.setRemnants (p : Part) (rs : List Remnant) : Part := { p with rsu := { p.rsu with remnants := rs } }

def Part.station (p : Part) (s : Station) : StationRec := look p.flp.stations s
def Part.setStation (p : Part) (s : Station) (r : StationRec) : Part := { p with flp := { p.flp with stations := put p.flp.stations s r } }

def Part.pass (p : Part) (s : Station) : PassRec := look p.flp.passTable s
def Part.setPass (p : Part) (s : Station) (r : PassRec) : Part := { p with flp := { p.flp with passTable := put p.flp.passTable s r } }

/-! ## Handing on inside a command (log 6) -/

/-- One more hand-off of the present step, after those it has already made. -/
def Part.emit (p : Part) (t : Task) : Part := { p with agenda := p.agenda ++ [t] }
/-- Several hand-offs, in order. -/
def Part.emits (p : Part) (ts : List Task) : Part := { p with agenda := p.agenda ++ ts }

/-! ## Notices (R181) -/

/-- How many notices the queue holds (R181). -/
def noticeCapacity : Nat := 32

/-- A notice handed to the Office Port: it takes the raised sequence value, and joins the queue or is dropped (R181). -/
def OfficePort.notify (o : OfficePort) (n : Notice) : OfficePort :=
  let seq := (o.sequence + 1) % 65536
  if o.notices.length < noticeCapacity then { o with sequence := seq, notices := o.notices ++ [(seq, n)] }
  else { o with sequence := seq, noticeLost := true }

/-- A notice of the present step. -/
def Part.notify (p : Part) (n : Notice) : Part := { p with ofp := p.ofp.notify n }

/-! ## Floor frames requested and withdrawn (R167) -/

/-- The arbiter's class of a frame (R167). A rotation poll has none; the arbiter grants it when nothing is pending (R169). -/
def FloorFrame.cls : FloorFrame → Nat
  | .arcStop _ => 1
  | .poll _ => 2
  | .order .. => 3
  | .orderCancel _ => 3
  | .init .. => 4
  | .register .. => 4
  | .reference => 4
  | .pierce .. => 4
  | .segment .. => 4
  | .resume .. => 4
  | .markText .. => 5
  | .pass .. => 6

/-- The kind code of a frame (12.2). -/
def FloorFrame.kind : FloorFrame → Nat
  | .poll _ => 0x01
  | .init .. => 0x02
  | .register .. => 0x03
  | .reference => 0x04
  | .pierce .. => 0x05
  | .segment .. => 0x06
  | .resume .. => 0x07
  | .arcStop _ => 0x08
  | .markText .. => 0x09
  | .order .. => 0x0A
  | .orderCancel _ => 0x0B
  | .pass cls _ => 0x40 + cls.ctorIdx

/-- The purpose of two ARC STOP requests taken as one: that of the job end by travel counts, then the engine's (log 19). -/
def ArcStopFor.merge : ArcStopFor → ArcStopFor → ArcStopFor
  | .travel, _ => .travel
  | _, .travel => .travel
  | .engine, _ => .engine
  | _, .engine => .engine
  | .warmReset, .warmReset => .warmReset

/-- The purpose of an ARC STOP frame. -/
def FloorFrame.arcStop? : FloorFrame → Option ArcStopFor
  | .arcStop a => some a
  | _ => none

/-- Does the request ask for an ARC STOP of this station? -/
def FloorRequest.isArcStop (r : FloorRequest) (s : Station) : Bool := r.station = s && r.frame.arcStop?.isSome

/-- A pending ARC STOP takes a further purpose (log 19). -/
def FloorRequest.mergeArcStop (a : ArcStopFor) (r : FloorRequest) : FloorRequest :=
  match r.frame with
  | .arcStop b => { r with frame := .arcStop (b.merge a) }
  | _ => r

/-- A frame requested of the Floor Port; a further ARC STOP of a station that has one pending is taken as that one (R167). -/
def FloorPort.request (f : FloorPort) (s : Station) (fr : FloorFrame) : FloorPort :=
  match fr.arcStop? with
  | some a =>
      if f.pending.any (·.isArcStop s) then
        { f with pending := f.pending.map (fun r => if r.isArcStop s then r.mergeArcStop a else r) }
      else { f with pending := f.pending ++ [⟨s, fr⟩] }
  | none => { f with pending := f.pending ++ [⟨s, fr⟩] }

/-- The pending frames that satisfy `what` are withdrawn (R167). -/
def FloorPort.withdraw (f : FloorPort) (what : FloorRequest → Bool) : FloorPort :=
  { f with pending := f.pending.filter (fun r => !what r) }

/-- A frame requested for a station. -/
def Part.request (p : Part) (s : Station) (fr : FloorFrame) : Part := { p with flp := p.flp.request s fr }
/-- Pending frames withdrawn. -/
def Part.withdraw (p : Part) (what : FloorRequest → Bool) : Part := { p with flp := p.flp.withdraw what }

/-- The frames of a gantry in the class 4 of the arbiter. -/
def isDispatch (g : Gantry) (r : FloorRequest) : Bool := r.station = gantryStation g && r.frame.cls == 4
/-- The SEGMENT frames of a gantry. -/
def isSegment (g : Gantry) (r : FloorRequest) : Bool := r.station = gantryStation g && r.frame.kind == 0x06
/-- The record a SEGMENT or RESUME frame carries (12.2). -/
def FloorFrame.cutRecord? : FloorFrame → Option Nat
  | .segment i _ => some i
  | .resume i _ _ => some i
  | _ => none
/-- The SEGMENT and RESUME frames of a gantry that carry one of these records. -/
def carriesRecord (g : Gantry) (is : List Nat) (r : FloorRequest) : Bool := r.station = gantryStation g && r.frame.cutRecord?.any is.contains
/-- The MARK TEXT frames of a gantry. -/
def isMarkText (g : Gantry) (r : FloorRequest) : Bool := r.station = gantryStation g && r.frame.kind == 0x09
/-- The due poll of a crane. -/
def isDuePoll (c : Crane) (r : FloorRequest) : Bool := r.station = craneStation c && r.frame.kind == 0x01

/-! ## The record memory (R34) -/

/-- The record at an address; EMPTY where none is listed (log 12). -/
def Memory.read : RecMem → Nat → Record
  | [], _ => .empty
  | (b, r) :: m, a => if b = a then r else Memory.read m a

/-- The memory with nothing listed at an address. -/
def Memory.erase (m : RecMem) (a : Nat) : RecMem := m.filter (fun e => e.1 != a)

/-- A record listed at its place in the order. -/
def Memory.insert : RecMem → Nat → Record → RecMem
  | [], a, r => [(a, r)]
  | (b, q) :: m, a, r => if a < b then (a, r) :: (b, q) :: m else if a = b then (a, r) :: m else (b, q) :: Memory.insert m a r

/-- A record written; EMPTY removes the entry, so that equal memories are equal data. -/
def Memory.write (m : RecMem) (a : Nat) (r : Record) : RecMem := if r = .empty then Memory.erase m a else Memory.insert m a r

/-- The canonical form: addresses strictly rising from `lo`, no EMPTY record listed. -/
def Memory.wfFrom : Nat → RecMem → Bool
  | _, [] => true
  | lo, (a, r) :: m => lo ≤ a && r != .empty && Memory.wfFrom (a + 1) m

/-- The canonical form of the record memory. -/
def Memory.wf (m : RecMem) : Bool := Memory.wfFrom 0 m

/-- The memory without the 16 records of a page. -/
def Memory.erasePage (m : RecMem) (page : Nat) : RecMem := m.filter (fun e => e.1 / 16 != page)

/-- The record at an index of a job: the page at that place of its list, then the place within the page (R34). -/
def JobEntry.address (e : JobEntry) (i : Nat) : Option Nat := (e.pages[i / 16]?).map (fun pg => pg * 16 + i % 16)

/-- Record `i` of a job, EMPTY beyond its pages. -/
def Part.record (p : Part) (j : JobNo) (i : Nat) : Record :=
  match (p.job j).address i with
  | some a => Memory.read p.jst.mem a
  | none => .empty

/-- The bed a job names in its header (R40). -/
def Part.jobBed (p : Part) (j : JobNo) : Option Bed :=
  match p.record j 0 with
  | .header _ b _ _ _ _ _ => some b
  | _ => none

/-- The list with one element replaced by a function of it. -/
def updateWhere {α : Type} (what : α → Bool) (f : α → α) (l : List α) : List α := l.map (fun a => if what a then f a else a)

end Sys2Proof.Machine
end

