-- ==== Sys2Proof/Machine/Operands.lean ====
section
/-! DEFINITION. The operands of the requests: the ranges of their codes, and the first check that fails. -/

namespace Sys2Proof.Machine

/-- What a request answers: the part it leaves, the reason code, and the fields an OK reply carries (R179). -/
abbrev Answered := Part × Reason × ReplyBody

/-- A refused request leaves the records as they were (00 §7). -/
def refuse (p : Part) (r : Reason) : Answered := (p, r, .none)

/-- An accepted request answered OK without fields. -/
def accept (p : Part) : Answered := (p, .ok, .none)

/-- The code of the first check that does not hold, OK when all hold. -/
def firstFailure : List (Bool × Reason) → Reason
  | [] => .ok
  | (holds, code) :: rest => if holds then firstFailure rest else code

/-- The request carried out when every check holds, refused with the code of the first that fails otherwise. -/
def checked (p : Part) (checks : List (Bool × Reason)) (body : Answered) : Answered :=
  match firstFailure checks with
  | .ok => body
  | r => refuse p r

/-- The request on the thing an index names; BAD_INDEX when it names none. -/
def indexed {k : Nat} (p : Part) (i : Nat) (body : Fin k → Answered) : Answered :=
  match fin? k i with
  | some x => body x
  | none => refuse p .badIndex

/-- A value lies in a range whose ends are included. -/
def within (lo hi n : Nat) : Bool := lo ≤ n && n ≤ hi
/-- A signed value lies in a range whose ends are included. -/
def withinInt (lo hi z : Int) : Bool := lo ≤ z && z ≤ hi

/-- A yes/no field holds one of its two codes (R189; log 11). -/
def isYesNo (n : Nat) : Bool := n ≤ 1

/-- A pass table action by its code (R173, R190). -/
def passAction? (n : Nat) : Option PassAction :=
  match n with
  | 0 => some .forward
  | 1 => some .block
  | 2 => some .forwardWhenOff
  | _ => none

/-- A passthrough class by its code (R191). -/
def passClass? (n : Nat) : Option PassClass :=
  match n with
  | 0 => some .diagnostic
  | 1 => some .parameter
  | 2 => some .motion
  | 3 => some .io
  | _ => none

/-- A MARK notice mode by its code (R68, R190). -/
def noticeMode? (n : Nat) : Option NoticeMode :=
  match n with
  | 0 => some .none
  | 1 => some .each
  | 2 => some .batch
  | _ => none

/-- A place code is one of the five (12.2). -/
def RawPlace.knownCode (p : RawPlace) : Bool := p.code ≤ 4

/-- The number of a place lies in its range: a bed 0 to 7, a slot 0 to 23; the other places have none. -/
def RawPlace.numberOk (p : RawPlace) : Bool :=
  match p.code with
  | 0 => p.num < 8
  | 1 => p.num < 24
  | _ => true

/-- The place a code and a number name. -/
def place? (p : RawPlace) : Option Place :=
  match p.code with
  | 0 => (fin? 8 p.num).map .bed
  | 1 => (fin? 24 p.num).map .slot
  | 2 => some .infeed
  | 3 => some .outfeed
  | 4 => some .hook
  | _ => none

/-- The load a kind byte and a number name: a stock tag, or SKELETON (12.2). -/
def load? (t : RawTag) : Option Load := if t.kind = 3 then some .skeleton else (tag? t.kind t.num).map .plate

/-- The beds whose bits are set in a reach byte (12.1). -/
def reachOf (byte : Nat) : List Bed := allBeds.filter (fun b => byte.testBit b.val)

end Sys2Proof.Machine
end

