-- ==== Sys2Proof/Machine/HallMap.lean ====
section
/-! DEFINITION. The Hall Map: bed content, burn ownership and crane claims, bed declarations, the bed, band and controller
tables (chapter 1). -/

namespace Sys2Proof.Machine

/-! ## Bed content (R4 to R6) -/

/-- The content of a bed is EMPTY (1.2). -/
def BedRec.isEmpty (r : BedRec) : Bool := r.plate.isNone && !r.skeleton

/-- The bed is held by a gantry or by an order. -/
def BedRec.held (r : BedRec) : Bool := r.owner.isSome || r.claim.isSome

/-- The content an order expects (R7). -/
def BedRec.meets (r : BedRec) : Expect → Bool
  | .plate t => r.plate == some t
  | .skeleton => r.plate.isNone && r.skeleton
  | .empty => r.isEmpty

/-- Every registration that names the bed becomes invalid (R6). -/
def Part.invalidateBed (p : Part) (b : Bed) : Part :=
  { p with bds := { p.bds with registrations := p.bds.registrations.map (fun r => if r.any (·.bed == b) then none else r) } }

/-- A change of a bed's content, taken whole: registrations with the tag (R6), then the report to the Crane Order Unit (R4) and the
offering (R9). Values equal to the present ones change nothing. -/
def Part.setContent (p : Part) (b : Bed) (plate : Option Tag) (skeleton partlyCut : Bool) : Part :=
  let r := p.bed b
  let p := p.setBed b { r with plate := plate, skeleton := skeleton, partlyCut := partlyCut }
  let p := if plate = r.plate then p else p.invalidateBed b
  if plate = r.plate ∧ skeleton = r.skeleton then p else p.emits [.contentReport b, .offer b]

/-- Place plate (R4). -/
def Part.placePlate (p : Part) (b : Bed) (t : Tag) : Part := p.setContent b (some t) false false
/-- Lift plate (R4). -/
def Part.liftPlate (p : Part) (b : Bed) : Part := p.setContent b none (p.bed b).skeleton false
/-- Lift skeleton (R4). -/
def Part.liftSkeleton (p : Part) (b : Bed) : Part := p.setContent b (p.bed b).plate false (p.bed b).partlyCut

/-- The job-end change of a bed (R5). -/
def Part.bedJobEnd (p : Part) (e : JobEnding) (remnant : Option Nat) : Part :=
  let r := p.bed e.bed
  if e.outcome = .ok then p.setContent e.bed (remnant.map (fun n => ⟨.remnant, n⟩)) true false
  else if e.partsCut = 0 then p
  else p.setContent e.bed r.plate r.skeleton true

/-! ## Burn ownership and crane claims (R7 to R9) -/

/-- Both cranes' presence records on the bed are ABSENT (2.2). -/
def Part.bedClear (p : Part) (b : Bed) : Bool := allCranes.all (fun c => (p.presence c b).state == .absent)

/-- The requester of a request (R8). -/
def BedRequest.requester : BedRequest → Requester
  | .burn g _ => .gantry g
  | .claim n _ => .order n

/-- The beds a request names; a bed named twice counts once (R7). -/
def BedRequest.beds : BedRequest → List Bed
  | .burn _ b => [b]
  | .claim _ bs => (bs.map (·.1)).eraseDups

/-- Do the conditions of R7 hold for the request at this moment? -/
def Part.grantable (p : Part) : BedRequest → Bool
  | .burn _ b => !(p.bed b).held && p.bedClear b
  | .claim _ bs => bs.all (fun (b, x) => !(p.bed b).held && (p.bed b).meets x)

/-- A request enters a waiting list: in place of its requester's earlier one, else at the tail (R8). -/
def joinList (q : BedRequest) (l : List BedRequest) : List BedRequest :=
  if l.any (fun x => x.requester == q.requester) then l.map (fun x => if x.requester = q.requester then q else x) else l ++ [q]

/-- A requester's requests leave every list (R8). -/
def Part.withdrawBed (p : Part) (who : Requester) : Part :=
  { p with hmp := { p.hmp with beds := p.hmp.beds.map (fun r => { r with waiting := r.waiting.filter (fun q => q.requester != who) }) } }

/-- The beds of a request become held by its requester, and its request leaves every list (R7, R8). -/
def Part.grantBed (p : Part) (q : BedRequest) : Part :=
  let p := p.withdrawBed q.requester
  match q with
  | .burn g b => p.setBed b { p.bed b with owner := some g }
  | .claim n bs => (bs.map (·.1)).foldl (fun p b => p.setBed b { p.bed b with claim := some n }) p

/-- A request taken: granted at once, or kept in the waiting list of every bed it names (R7, R8). -/
def Part.requestBed (p : Part) (q : BedRequest) : Part × Bool :=
  if p.grantable q then (p.grantBed q, true)
  else (q.beds.foldl (fun p b => p.setBed b { p.bed b with waiting := joinList q (p.bed b).waiting }) p, false)

/-- The hand-off that tells a requester of a grant made at an offering (R9). -/
def BedRequest.told : BedRequest → Task
  | .burn g _ => .gantryGranted g
  | .claim n _ => .orderGranted n

/-- The bed is offered to its waiting list: the oldest request whose conditions all hold is granted (R9). -/
def Part.offer (p : Part) (b : Bed) : Part :=
  if (p.bed b).held then p
  else match (p.bed b).waiting.find? p.grantable with
  | some q => (p.grantBed q).emit q.told
  | none => p

/-- The burn owner of a bed is released, and the bed offered (R9). -/
def Part.releaseOwner (p : Part) (b : Bed) : Part := (p.setBed b { p.bed b with owner := none }).emit (.offer b)

/-- The crane claim of a bed is released, and the bed offered (R9). -/
def Part.releaseClaim (p : Part) (b : Bed) : Part := (p.setBed b { p.bed b with claim := none }).emit (.offer b)

/-! ## Bed declarations (R10, R11) -/

/-- Does another bed carry this tag? -/
def Part.tagElsewhere (p : Part) (b : Bed) (t : Tag) : Bool := allBeds.any (fun x => x != b && (p.bed x).plate == some t)

/-- BED DECLARE (R10). A condition byte that is none of the two is refused BAD_FIELD, with the check of the tag (log 37). -/
def bedDeclare (p : Part) (bed : Nat) (plate : RawTag) (condition : Nat) : Answered :=
  indexed p bed fun b =>
    let r := p.bed b
    match tag? plate.kind plate.num, condition? condition with
    | some t, some c =>
        checked p
          [(t.kind == .mill, .badField), (!r.held, .inUse), (r.loaded && r.isEmpty && !p.tagElsewhere b t, .state)]
          (accept (p.setContent b (some t) false (c == .continuation)))
    | _, _ => refuse p .badField

/-- BED CLEAR (R11). The Remnant Stock Unit's part comes before the report and the offering; it touches the record and no stack
(log 46). -/
def bedClearRequest (p : Part) (bed : Nat) : Answered :=
  indexed p bed fun b =>
    let r := p.bed b
    if r.held then refuse p .inUse
    else
      let p := match r.plate with
        | some ⟨.remnant, n⟩ => p.emit (.remnantSet n (some .unknown) none)
        | _ => p
      accept (p.setContent b none false false)

/-! ## The bed table (R2, R3) -/

/-- Two rectangles share more than an edge or a corner (R2). -/
def Rect.overlaps (a b : Rect) : Bool := a.xLo < b.xHi && b.xLo < a.xHi && a.yLo < b.yHi && b.yLo < a.yHi

/-- The rectangle has an inside and lies in the hall extent (R2). -/
def Part.rectOk (p : Part) (r : Rect) : Bool :=
  r.xLo < r.xHi && r.yLo < r.yHi && 0 ≤ r.xLo && r.xHi ≤ p.hmp.hallLength && 0 ≤ r.yLo && r.yHi ≤ p.hmp.hallWidth

/-- The point lies in the rectangle, ends included. -/
def Rect.holds (r : Rect) (q : Point) : Bool := r.xLo ≤ q.x && q.x ≤ r.xHi && r.yLo ≤ q.y && q.y ≤ r.yHi

/-- No other loaded bed's rectangle overlaps this one (R2). -/
def Part.rectFree (p : Part) (b : Bed) (r : Rect) : Bool :=
  allBeds.all (fun x => x == b || !(p.bed x).loaded || !((p.bed x).rect.any (·.overlaps r)))

/-- A gantry holds a valid registration naming the bed. -/
def Part.bedRegistered (p : Part) (b : Bed) : Bool := allGantries.any (fun g => (p.registration g).any (·.bed == b))

/-- A job QUEUED or ACTIVE names the bed in its header (R2). -/
def Part.bedInJobs (p : Part) (b : Bed) : Bool :=
  allJobs.any (fun j => ((p.job j).state == .queued || (p.job j).state == .active) && p.jobBed j == some b)

/-- The order is QUEUED, HELD, SENT or PICKED. -/
def Order.live (o : Order) : Bool := o.state == .queued || o.state == .held || o.state == .sent || o.state == .picked

/-- An order in progress names the place as its source or destination. -/
def Part.placeInOrders (p : Part) (x : Place) : Bool :=
  allOrders.any (fun n => (p.order n).any (fun o => o.live && (o.source == x || o.destination == x)))

/-- A presence record of each crane for the bed: PRESENT for an installed crane, ABSENT for an uninstalled one (R3). -/
def Part.bedLoadedPresences (p : Part) (b : Bed) : Part :=
  allCranes.foldl (fun p c => p.setPresence c b ⟨if (p.crane c).installed then .present else .absent, 0⟩) p

/-- Both presence records of the bed become ABSENT (R3). -/
def Part.bedAbsentPresences (p : Part) (b : Bed) : Part := allCranes.foldl (fun p c => p.setPresence c b ⟨.absent, 0⟩) p

/-- LOAD ENTRY of table BED (R2, R3). A load with loaded = no that makes the bed clear leads to an offering (R26). -/
def loadBed (p : Part) (index loaded : Nat) (xLo xHi yLo yHi ox oy : Int) : Answered :=
  indexed p index fun b =>
    let r := p.bed b
    let rect : Rect := ⟨xLo, xHi, yLo, yHi⟩
    let yes := loaded == 1
    checked p
      [(isYesNo loaded && (!yes || p.rectOk rect), .badField), (!yes || rect.holds ⟨ox, oy⟩, .badField),
       (!yes || p.rectFree b rect, .badField), (!r.held && !p.bedRegistered b, .inUse),
       (yes || (!p.bedInJobs b && !p.placeInOrders (.bed b)), .state)]
      (if yes then
        accept ((p.setBed b { r with loaded := true, rect := some rect, origin := some ⟨ox, oy⟩ }).bedLoadedPresences b)
      else
        let wasClear := p.bedClear b
        let p := (p.setBed b { r with loaded := false, rect := none, origin := none }).bedAbsentPresences b
        accept (if wasClear then p else p.emit (.offer b)))

/-! ## The band table (R14, R15) -/

def Part.band (p : Part) (i : Fin 8) : Band := look p.hmp.bands i

/-- The band entry at a place, when there is one. -/
def Part.band? (p : Part) (i : Nat) : Option Band := (fin? 8 i).map p.band

/-- LOAD ENTRY of table BAND (R14). -/
def loadBand (p : Part) (index loaded bound margin : Nat) : Answered :=
  indexed p index fun i =>
    let yes := loaded == 1
    let before : Option Band := if i.val = 0 then none else p.band? (i.val - 1)
    let after := p.band? (i.val + 1)
    let set (r : Band) : Part := { p with hmp := { p.hmp with bands := put p.hmp.bands i r } }
    checked p
      [(isYesNo loaded && (!yes || (within 30 1500 bound && within 0 50 margin)), .badField),
       (!yes || before.all (·.loaded), .state),
       (!yes || (before.all (·.bound < bound) && after.all (fun r => !r.loaded || bound < r.bound)), .badField),
       (yes || (i.val != 0 && !after.any (·.loaded)), .state)]
      (accept (set (if yes then ⟨true, bound, margin⟩ else { p.band i with loaded := false })))

/-- The margin for a thickness (R15). -/
def Part.marginFor (p : Part) (thickness : Nat) : Nat :=
  let loaded := p.hmp.bands.toList.filter (·.loaded)
  match loaded.find? (fun r => thickness ≤ r.bound) with
  | some r => r.margin
  | none => ((loaded.getLast?).map (·.margin)).getD 0

/-! ## The controller entry (R12) -/

/-- A rectangle lies in an extent. -/
def Rect.inExtent (r : Rect) (length width : Int) : Bool := 0 ≤ r.xLo && r.xHi ≤ length && 0 ≤ r.yLo && r.yHi ≤ width

/-- A point lies in an extent. -/
def Point.inExtent (q : Point) (length width : Int) : Bool := 0 ≤ q.x && q.x ≤ length && 0 ≤ q.y && q.y ≤ width

/-- Every loaded bed and every loaded slot lies in the extent (R12). -/
def Part.allInExtent (p : Part) (length width : Int) : Bool :=
  allBeds.all (fun b => !(p.bed b).loaded || (p.bed b).rect.all (·.inExtent length width))
    && allSlots.all (fun k => !(p.slot k).loaded || (p.slot k).position.all (·.inExtent length width))

/-- LOAD ENTRY of table CONTROLLER (R12): all six fields at once, each in the block that holds it. -/
def loadController (p : Part) (index window : Nat) (hallLength hallWidth : Int) (digPenalty digReserve minimumSize : Nat) : Answered :=
  checked p
    [(index == 0, .badIndex),
     (within 1 20 window && withinInt 1000 3000000 hallLength && withinInt 1000 600000 hallWidth && within 0 1023 digPenalty
        && within 0 8 digReserve && within 100 2000 minimumSize, .badField),
     ((p.hmp.hallLength ≤ hallLength && p.hmp.hallWidth ≤ hallWidth) || p.allInExtent hallLength hallWidth, .state)]
    (accept { p with
      hmp := { p.hmp with hallLength := hallLength, hallWidth := hallWidth },
      rsu := { p.rsu with digPenalty := digPenalty, digReserve := digReserve, minSize := minimumSize },
      flp := { p.flp with answerWindow := window } })

/-! ## The beds after a warm reset (R16) -/

/-- The bed records at a warm reset: holders and waiting lists given up, partly-cut set on the beds of the jobs that had cut. -/
def Part.bedsWarmReset (p : Part) (cut : List Bed) : Part :=
  allBeds.foldl (fun p b =>
    let r := p.bed b
    p.setBed b { r with owner := none, claim := none, waiting := [], partlyCut := r.partlyCut || cut.contains b }) p

end Sys2Proof.Machine
end

