-- ==== Sys2Proof/Machine/Flags.lean ====
section
/-! DEFINITION. The flags and reasons the part reports: held reasons (R67), NOTICE_LOST and MARK_UNDERFLOW (R112, R181, R185),
eligibility and the off condition of a station (R162, R173), and the GANTRY_STATE notice (R95). -/

namespace Sys2Proof.Machine

/-- Any stored held reason. -/
def Held.any (h : Held) : Bool := h.office || h.cranePresent || h.markDecision

/-- The bed of the head job of a gantry's queue. -/
def Part.headBed (p : Part) (g : Gantry) : Option Bed := (p.queue g).head?.bind p.jobBed

/-- The held reasons as they are reported: for a gantry in IDLE whose bed request is WAITING, BED_CLAIMED and CRANE_PRESENT as the
head job's bed stands (R67). -/
def Part.reportedHeld (p : Part) (g : Gantry) : ReportedHeld :=
  let e := p.engine g
  match e.state, e.bedRequest, p.headBed g with
  | .idle, .waiting, some b =>
      { stored := { e.held with cranePresent := e.held.cranePresent || !p.bedClear b }, bedClaimed := (p.bed b).held }
  | _, _, _ => { stored := e.held }

/-- The GANTRY_STATE notice of a gantry as it stands (R95). -/
def Part.stateNotice (p : Part) (g : Gantry) (cause : StateCause) (code stop : Option Nat) : Notice :=
  let e := p.engine g
  .gantryState g e.state (p.reportedHeld g) e.job e.counters.lastPart cause code stop

/-- A gantry's station is eligible while its engine is not OFF, a crane's while the crane is installed (R162). -/
def Part.eligible (p : Part) (s : Station) : Bool :=
  match stationGantry? s, stationCrane? s with
  | some g, _ => (p.engine g).state != .off
  | none, some c => (p.crane c).installed
  | none, none => false

/-- A station is off: its engine OFF, or its crane not TRACKING (R173). -/
def Part.stationOff (p : Part) (s : Station) : Bool :=
  match stationGantry? s, stationCrane? s with
  | some g, _ => (p.engine g).state == .off
  | none, some c => (p.crane c).state != .tracking
  | none, none => false

/-- The pass table's action of a class (R173). -/
def PassRec.action (r : PassRec) : PassClass → PassAction
  | .diagnostic => r.diagnostic
  | .parameter => r.parameter
  | .motion => r.motion
  | .io => r.io

/-- The pass table refuses a frame of this class to this station (R174). -/
def Part.passBlocked (p : Part) (s : Station) (cls : PassClass) : Bool :=
  match (p.pass s).action cls with
  | .forward => false
  | .block => true
  | .forwardWhenOff => !p.stationOff s

/-- MARK_UNDERFLOW set on a gantry (R112). -/
def Part.raiseUnderflow (p : Part) (g : Gantry) : Part := p.setMarks g { p.marks g with underflow := true }

/-- CLEAR FLAGS: NOTICE_LOST and the MARK_UNDERFLOW flags of all gantries (R185). -/
def Part.clearFlags (p : Part) : Part :=
  { p with ofp := { p.ofp with noticeLost := false }, mks := p.mks.map (fun m => { m with underflow := false }) }

end Sys2Proof.Machine
end

