-- ==== Sys2Proof/Machine/JobStore.lean ====
section
/-! DEFINITION. The Job Store: pages, job numbers, job requests, the dispatch and completion queues, the grammar of a job body
(chapter 3). -/

namespace Sys2Proof.Machine

/-! ## Pages and numbers (R34 to R37) -/

/-- The state of a job number that no request has taken (R36). -/
def JobEntry.isFree (e : JobEntry) : Bool := e.state == .free

/-- How many records the pages of a job hold (R34). -/
def JobEntry.size (e : JobEntry) : Nat := 16 * e.pages.length

/-- The job a number names when its entry is not FREE; BAD_JOB otherwise (R39, R42, R43, R45). -/
def allocated (p : Part) (job : Nat) (body : JobNo → JobEntry → Answered) : Answered :=
  match fin? 64 job with
  | some j => if (p.job j).isFree then refuse p .badJob else body j (p.job j)
  | none => refuse p .badJob

/-- A job released: its pages to the tail of the pool, its entry FREE (R45). -/
def Part.releaseJob (p : Part) (j : JobNo) : Part :=
  let p' := { p with jst := { p.jst with pool := p.jst.pool ++ (p.job j).pages } }
  p'.setJob j {}

/-- A record written into a job (R41). -/
def Part.writeRecord (p : Part) (j : JobNo) (i : Nat) (r : Record) : Part :=
  match (p.job j).address i with
  | some a => { p with jst := { p.jst with mem := Memory.write p.jst.mem a r } }
  | none => p

/-- Records written at consecutive places (R41). -/
def Part.writeRecords (p : Part) (j : JobNo) : Nat → List Record → Part
  | _, [] => p
  | i, r :: rs => (p.writeRecord j i r).writeRecords j (i + 1) rs

/-- Every record a frame carries, when all pass check 6 (R39). -/
def parseRecords : List (List Byte) → Option (List Record)
  | [] => some []
  | b :: bs =>
      match parseRecord b, parseRecords bs with
      | some r, some rs => some (r :: rs)
      | _, _ => none

/-- The place of a number in a queue, counted from 1 at the head (R36). -/
def placeIn {α : Type} [BEq α] (l : List α) (a : α) : Option Nat := (l.findIdx? (· == a)).map (· + 1)

/-- The position of a job in the queue that holds it (R36). -/
def Part.jobPosition (p : Part) (j : JobNo) : Option Nat :=
  match (p.job j).state, (p.job j).gantry with
  | .queued, some g => placeIn (p.queue g) j
  | .completed, _ => if (p.job j).inCompletion then placeIn p.jst.completions j else none
  | _, _ => none

/-! ## The requests (R38 to R45, R50, R51) -/

/-- JOB OPEN (R38). -/
def jobOpen (p : Part) (n : Nat) : Answered :=
  if !within 1 256 n then refuse p .badField
  else match allJobs.find? (fun j => (p.job j).isFree) with
  | none => refuse p .noNumber
  | some j =>
      if p.jst.pool.length < n then refuse p .noMemory
      else
        let pages := p.jst.pool.take n
        let p := { p with jst := { p.jst with pool := p.jst.pool.drop n, mem := pages.foldl Memory.erasePage p.jst.mem } }
        (p.setJob j { state := .opened, pages := pages }, .ok, .jobOpened j n)

/-- JOB WRITE (R39 to R41). -/
def jobWrite (p : Part) (job offset : Nat) (records : List (List Byte)) : Answered :=
  allocated p job fun j e =>
    let n := records.length
    checked p
      [(e.state == .opened, .inUse), (within 1 8 n, .badRequest), (!(offset ≤ 1 && 1 < offset + n), .badOffset),
       (offset + n ≤ e.size, .badOffset)]
      (match parseRecords records with
       | some rs => accept (p.writeRecords j offset rs)
       | none => refuse p .badField)

/-- JOB READ (R42). -/
def jobRead (p : Part) (job offset count : Nat) : Answered :=
  allocated p job fun j e =>
    checked p [(within 1 8 count, .badRequest), (offset < e.size, .badOffset)]
      (p, .ok, .records ((List.range (min count (e.size - offset))).map (fun i => p.record j (offset + i))))

/-- JOB ENQUEUE (R43); the engine is told when its queue gets a head (R74). The position of the reply is that at the placing, although
the job may start in the same step (R179; log 13). -/
def jobEnqueue (p : Part) (job gantry : Nat) : Answered :=
  allocated p job fun j e =>
    indexed p gantry fun g =>
      if e.state ≠ .opened then refuse p .state
      else match p.record j 0 with
      | .header _ b _ _ _ _ parts =>
          checked p
            [(within 1 999 parts, .badJob), ((look p.hmp.beds b).loaded, .state),
             ((p.params g).loaded && (p.params g).reach.contains b, .state)]
            (let q := p.queue g
             let p := (p.setJob j { e with state := .queued, gantry := some g }).setQueue g (q ++ [j])
             (if q.isEmpty then p.emit (.takeUp g) else p, .ok, .enqueued (q.length + 1)))
      | _ => refuse p .badJob

/-- JOB RELEASE (R45). -/
def jobRelease (p : Part) (job : Nat) : Answered :=
  allocated p job fun j e =>
    if e.state = .opened ∨ (e.state = .completed ∧ e.inCompletion = false) then accept (p.releaseJob j) else refuse p .inUse

/-- The head of the completion queue removed (R50, R51). -/
def Part.popCompletion (p : Part) : Option (JobNo × Part) :=
  match p.jst.completions with
  | [] => none
  | j :: rest =>
      let p := { p with jst := { p.jst with completions := rest } }
      some (j, p.setJob j { p.job j with inCompletion := false })

/-- COMPLETION ACK (R50). -/
def completionAck (p : Part) : Answered :=
  match p.popCompletion with
  | none => refuse p .state
  | some (j, p) => (p, .ok, .acknowledged j p.jst.completions.length p.jst.completions.head?)

/-- COMPLETION ACK AND RELEASE (R51). -/
def completionAckAndRelease (p : Part) : Answered :=
  match p.popCompletion with
  | none => refuse p .state
  | some (j, p) => (p.releaseJob j, .ok, .released j (p.record j 1) p.jst.completions.length p.jst.completions.head?)

/-! ## Job start and job end (R44, R49) -/

/-- The head job leaves its dispatch queue and becomes ACTIVE; QUEUE_EMPTY when the queue is left empty (R44). -/
def Part.activateHead (p : Part) (g : Gantry) (j : JobNo) : Part :=
  let q := (p.queue g).drop 1
  let p := (p.setQueue g q).setJob j { p.job j with state := .active, gantry := some g }
  if q.isEmpty then p.notify (.queueEmpty g) else p

/-- The completion record written, and the job released or placed in the completion queue (R49). -/
def Part.settleJob (p : Part) (g : Gantry) (j : JobNo) (c : Completion) : Part :=
  let p := p.writeRecord j 1 (.completion c)
  if c.outcome = .ok ∧ (p.params g).autoRelease = true then p.releaseJob j
  else
    let first := p.jst.completions.isEmpty
    let p := p.setJob j { p.job j with state := .completed, gantry := some g, inCompletion := true }
    let p := { p with jst := { p.jst with completions := p.jst.completions ++ [j] } }
    if first then p.notify (.completionPending j c.outcome) else p

/-! ## The job body (R46 to R48) -/

/-- Where the pre-scan stands in the grammar of R48: before the first part; reading the TEXT records of a part; before its first
chain; after at least one RAPID of a chain; after a PIERCE; within a chain that has a segment; done. -/
inductive ScanAt where
  | start
  | texts (left : Nat)
  | chains
  | rapids
  | pierced
  | cutting
  | done
  deriving DecidableEq, Repr

/-- One record of the body, by the grammar of R48; none when it may not stand there. A part whose mark is required has a text. -/
def ScanAt.next (at_ : ScanAt) (r : Record) : Option ScanAt :=
  let part (req : Bool) (n : Nat) : Option ScanAt := if req ∧ n = 0 then none else if n = 0 then some .chains else some (.texts n)
  match at_, r with
  | .start, .part _ _ _ req n => part req n
  | .texts n, .text _ => if n ≤ 1 then some .chains else some (.texts (n - 1))
  | .chains, .rapid _ _ => some .rapids
  | .chains, .pierce _ _ _ => some .pierced
  | .rapids, .rapid _ _ => some .rapids
  | .rapids, .pierce _ _ _ => some .pierced
  | .pierced, .line _ _ _ _ => some .cutting
  | .pierced, .arc _ _ _ _ _ _ _ => some .cutting
  | .cutting, .line _ _ _ _ => some .cutting
  | .cutting, .arc _ _ _ _ _ _ _ => some .cutting
  | .cutting, .rapid _ _ => some .rapids
  | .cutting, .pierce _ _ _ => some .pierced
  | .cutting, .part _ _ _ req n => part req n
  | .cutting, .endOfJob => some .done
  | _, _ => none

/-- The pre-scan of a body: the part count of a well-formed body, none for any other (R48). -/
def scanBody : ScanAt → Nat → List Record → Option Nat
  | _, _, [] => none
  | a, parts, r :: rs =>
      match a.next r with
      | some .done => some parts
      | some a' => scanBody a' (match r with | .part .. => parts + 1 | _ => parts) rs
      | none => none

/-- The records of a job from record `i` on. -/
def Part.recordsFrom (p : Part) (j : JobNo) (i : Nat) : List Record :=
  (List.range ((p.job j).size - i)).map (fun k => p.record j (i + k))

/-- The body is well formed and holds the part count of the header (R48). -/
def Part.bodyWellFormed (p : Part) (j : JobNo) (parts : Nat) : Bool := scanBody .start 0 (p.recordsFrom j 2) == some parts

/-! ## The Job Store after a reset (R53) -/

/-- Pool, job table and queues at a reset; the record memory keeps what it held (R35, R36, R53). -/
def JobStore.warmReset (s : JobStore) : JobStore := { ({} : JobStore) with mem := s.mem }

end Sys2Proof.Machine
end

