-- ==== Sys2Proof/Machine/Transform.lean ====
section
/-! DEFINITION. The Transform Unit: plate-to-hall arithmetic and the travel window check (chapter 4). It holds no state (R64). -/

namespace Sys2Proof.Machine

/-- The cosine term of a skew (R59, stage 1). -/
def cosTerm (k : Int) : Int := 1048576 - k * k / 2097152

/-- A product rounded to the nearest whole tenth, a half upward (R60, stage 3). -/
def roundTerm (n : Int) : Int := (n + 524288) / 1048576

/-- The hall point of a plate point (R59, R60). -/
def hallPoint (r : Registration) (u v : Nat) : Point :=
  let c := cosTerm r.k
  ⟨r.ox + roundTerm (u * c - v * r.k), r.oy + roundTerm (v * c + u * r.k)⟩

/-- The hall point of a plate point when it lies inside the window, ends included (R61). -/
def insidePoint (r : Registration) (w : Rect) (u v : Nat) : Option Point :=
  let q := hallPoint r u v
  if w.xLo ≤ q.x ∧ q.x ≤ w.xHi ∧ w.yLo ≤ q.y ∧ q.y ≤ w.yHi then some q else none

/-- The SEGMENT payload of a LINE, ARC or RAPID, when every point of it lies inside the window (R61, R62). -/
def segmentOf (r : Registration) (w : Rect) : Record → Option SegmentBody
  | .line u v feed length => (insidePoint r w u v).map (fun q => .line q feed length)
  | .arc u v cu cv ccw feed length =>
      match insidePoint r w u v, insidePoint r w cu cv with
      | some q, some c => some (.arc q c ccw feed length)
      | _, _ => none
  | .rapid u v => (insidePoint r w u v).map .rapid
  | _ => none

/-- A plate point transformed for a gantry with its registration and window (R61). A call without a registration is not made
(R64) and answers no point. -/
def Part.transform (p : Part) (g : Gantry) (u v : Nat) : Option Point :=
  (p.registration g).bind (fun r => insidePoint r (p.params g).window u v)

/-- The SEGMENT payload of a record for a gantry (R62). -/
def Part.segmentFor (p : Part) (g : Gantry) (r : Record) : Option SegmentBody :=
  (p.registration g).bind (fun x => segmentOf x (p.params g).window r)

end Sys2Proof.Machine
end

