-- ==== Sys2Proof/Machine/Mark.lean ====
section
/-! DEFINITION. The Mark Sequencer: texts, the slot window, MARK_DONE, phases, part decisions (chapter 7). -/

namespace Sys2Proof.Machine

/-! ## Texts (R108) -/

/-- A character the scribing head can cut: digits, capital letters, space, hyphen, slash, full stop (R108). -/
def cuttable (b : Byte) : Bool :=
  let n := b.toNat
  within 48 57 n || within 65 90 n || n == 32 || n == 45 || n == 47 || n == 46

/-- The assembled text of the joined characters: others replaced by a space, spaces at the end dropped (R108). -/
def assembleText (chars : List Byte) : List Byte :=
  ((chars.map (fun b => if cuttable b then b else 32#8)).reverse.dropWhile (· == 32#8)).reverse

/-- The characters of the TEXT records that stand directly at the head of the records. -/
def textsAtHead : List Record → List Byte
  | .text cs :: rs => cs ++ textsAtHead rs
  | _ => []

/-- The mark list of a body, from part index `i` on (R107, R108). -/
def markEntries : Nat → List Record → List MarkEntry
  | _, [] => []
  | i, .part tag u v req n :: rs =>
      ⟨i, tag, u, v, req, assembleText (textsAtHead rs), if n = 0 then .none else .queued⟩ :: markEntries (i + 1) rs
  | _, .endOfJob :: _ => []
  | i, _ :: rs => markEntries i rs

/-- The context as the pre-scan of a well-formed body leaves it (R108). -/
def Part.handTexts (p : Part) (g : Gantry) (j : JobNo) : Part :=
  let es := markEntries 1 (p.recordsFrom j 2)
  p.setMarks g { p.marks g with
    marks := es, sendList := (es.filter (·.status == .queued)).map (·.index), unresolved := [], phase := .first,
    sendCounter := 0, okCount := 0, failCount := 0 }

/-! ## The mark list -/

/-- The entry of a part. -/
def MarkContext.entry (m : MarkContext) (part : Nat) : Option MarkEntry := m.marks.find? (·.index == part)

/-- A part's status replaced. -/
def MarkContext.setStatus (m : MarkContext) (part : Nat) (s : MarkStatus) : MarkContext :=
  { m with marks := updateWhere (·.index == part) (fun e => { e with status := s }) m.marks }

/-- The lowest-numbered free slot (R109). -/
def MarkContext.freeSlot (m : MarkContext) : Option (Fin 4) := ([0, 1, 2, 3] : List (Fin 4)).find? (fun s => (look m.slots s).isNone)

/-- Every slot is free (R113). -/
def MarkContext.allFree (m : MarkContext) : Bool := m.slots.toList.all (·.isNone)

/-- A slot freed. -/
def MarkContext.free (m : MarkContext) (s : Fin 4) : MarkContext := { m with slots := put m.slots s none }

/-- The slots whose MARK TEXT frames stand pending for a gantry (R110, R118). -/
def Part.pendingSlots (p : Part) (g : Gantry) : List (Fin 4) :=
  p.flp.pending.filterMap (fun r => if isMarkText g r then (match r.frame with | .markText s _ _ => some s | _ => none) else none)

/-- The slots of dropped or withdrawn MARK TEXT frames freed (R110). -/
def MarkContext.freeSlots (m : MarkContext) (ss : List (Fin 4)) : MarkContext := ss.foldl MarkContext.free m

/-- The boundary status of a part (R117). -/
inductive BoundaryStatus where
  | skip | undecided | unmarked | good
  deriving DecidableEq, Repr

/-- The status reported at a boundary (R117). -/
def MarkContext.boundaryStatus (m : MarkContext) (part : Nat) : BoundaryStatus :=
  match (m.entry part).map MarkEntry.status with
  | some .none => .good
  | some .good => .good
  | some .unmarked => .unmarked
  | some .skip => .skip
  | _ => .undecided

/-! ## Sending (R109, R113, R114) -/

/-- The BATCH notice of a phase, when the notice mode asks for it (R114). -/
def Part.batchNotice (p : Part) (g : Gantry) (phase : MarkPhase) : Part :=
  let m := p.marks g
  if m.mode = .batch then p.notify (.markBatch g (p.engine g).job phase m.okCount m.failCount m.unresolved.length) else p

/-- A phase ends: its notice, and the engine told to go to the boundary (R113, R116). -/
def Part.endPhase (p : Part) (g : Gantry) (phase : MarkPhase) : Part :=
  ((p.setMarks g { p.marks g with phase := .none }).batchNotice g phase).emit (.boundary g true)

/-- One text given the lowest free slot and requested of the Floor Port (R109). -/
def Part.sendText (p : Part) (g : Gantry) (e : MarkEntry) (s : Fin 4) (at_ : Point) : Part :=
  let m := p.marks g
  let n := min 65535 (m.sendCounter + 1)
  let m := { m with sendCounter := n, slots := put m.slots s (some ⟨(p.engine g).job, e.index, n⟩), sendList := m.sendList.drop 1 }
  (p.setMarks g (m.setStatus e.index .sent)).request (gantryStation g) (.markText s at_ e.text)

/-- What the context does next while its engine is in MARK: the head of the send list into a free slot; TRAVEL when its position
lies outside the window; the end of the FIRST phase when all is done (R109, R113). -/
def Part.markPump (p : Part) (g : Gantry) : Part :=
  let m := p.marks g
  if (p.engine g).state = .mark ∧ m.phase ≠ .none then
    match m.sendList, m.freeSlot with
    | [], _ => if m.phase = .first ∧ m.allFree = true then p.endPhase g .first else p
    | _ :: _, none => p
    | part :: _, some s =>
        match m.entry part with
        | none => p
        | some e =>
            match p.transform g e.u e.v with
            | some at_ => (p.sendText g e s at_).emit (.markPump g)
            | none => (p.setMarks g { m with sendList := [] }).emit (.jobEnd g .travel none .idle)
  else p

/-! ## MARK_DONE (R111, R112) -/

/-- The result applied to the part of a slot (R111), with its EACH notice (R114). -/
def Part.applyMark (p : Part) (g : Gantry) (s : Fin 4) (f : MarkSlot) (e : MarkEntry) (ok : Bool) : Part :=
  let m := p.marks g
  let after : MarkStatus := if ok then .good else if e.required then .failed else .unmarked
  let m := m.setStatus e.index after
  let m := { m with
    unresolved := if after = .failed then m.unresolved ++ [e.index] else m.unresolved,
    okCount := if ok then min 999 (m.okCount + 1) else m.okCount,
    failCount := if ok then m.failCount else min 999 (m.failCount + 1) }
  let p := p.setMarks g m
  if m.mode = .each then p.notify (.markEach g f.job e.index e.partTag s f.sendOrder ok e.required after) else p

/-- The RETRY phase ends with the done of its text (R116): MARK_DECISION is cleared by a good mark (R67). -/
def Part.endRetry (p : Part) (g : Gantry) (ok : Bool) : Part :=
  let e := p.engine g
  let p := if ok then p.setEngine g { e with held := { e.held with markDecision := false } } else p
  p.endPhase g .retry

/-- MARK_DONE of a slot (R111, R112). A MARK TEXT frame of the slot that is still pending stays so (log 50). -/
def Part.markDone (p : Part) (g : Gantry) (slot : Nat) (ok : Bool) : Part :=
  if (p.engine g).state = .off then p
  else match fin? 4 slot with
    | none => p.raiseUnderflow g
    | some s =>
        match look (p.marks g).slots s with
        | none => p.raiseUnderflow g
        | some f =>
            let p := p.setMarks g ((p.marks g).free s)
            let entry := (p.marks g).entry f.part
            if f.job.isSome ∧ f.job = (p.engine g).job ∧ entry.any (·.status == .sent) = true then
              match entry with
              | none => p
              | some e =>
                  let p := p.applyMark g s f e ok
                  if (p.marks g).phase = .retry then p.endRetry g ok else p.emit (.markPump g)
            else p.emit (.markPump g)

/-- A REFUSE of a MARK TEXT: the slot is freed, and a text of the active job ends the job MACHINE (R110). It is judged by what the slot
holds when it is taken (log 51). -/
def Part.markRefused (p : Part) (g : Gantry) (s : Fin 4) (code : Nat) : Part :=
  match look (p.marks g).slots s with
  | none => p
  | some f =>
      let m := (p.marks g).free s
      if f.job.isSome ∧ f.job = (p.engine g).job then
        (p.setMarks g (m.setStatus f.part .queued)).emit (.machine g code true)
      else (p.setMarks g m).emit (.markPump g)

/-! ## Part decisions (R115 to R117) -/

/-- A single retried text: the RETRY phase starts and the engine enters MARK (R116, R80). -/
def Part.startRetry (p : Part) (g : Gantry) (part : Nat) : Part :=
  let m := { (p.marks g).setStatus part .queued with sendList := [part], phase := .retry, okCount := 0, failCount := 0 }
  ((p.setMarks g m).setEngine g { p.engine g with state := .mark }).emit (.markPump g)

/-- The engine is HELD at the boundary of this part. -/
def Part.heldAt (p : Part) (g : Gantry) (part : Nat) : Bool := (p.engine g).state == .held && (p.engine g).counters.lastPart == part

/-- A RETRY MARK decision acts by the phase and the engine's state (R116). -/
def Part.decideRetry (p : Part) (g : Gantry) (part : Nat) : Part :=
  let m := p.marks g
  if m.phase = .first then
    (p.setMarks g { m.setStatus part .queued with sendList := m.sendList ++ [part] }).emit (.markPump g)
  else if m.phase = .none ∧ p.heldAt g part = true then p.startRetry g part
  else p.setMarks g (m.setStatus part .retry)

/-- A SKIP PART or CUT UNMARKED decision: the status, and the engine told when it is HELD at that part (R115). -/
def Part.decideStatus (p : Part) (g : Gantry) (part : Nat) (s : MarkStatus) : Part :=
  let p' := p.setMarks g ((p.marks g).setStatus part s)
  if p.heldAt g part = true then
    let e := p'.engine g
    (p'.setEngine g { e with held := { e.held with markDecision := false } }).emit (.boundary g false)
  else p'

/-- PART DECISION (R115): 0 SKIP PART, 1 CUT UNMARKED, 2 RETRY MARK (R190). -/
def partDecision (p : Part) (gantry part decision : Nat) : Answered :=
  indexed p gantry fun g =>
    let m := p.marks g
    checked p [(within 1 999 part && decision ≤ 2, .badField), (m.unresolved.contains part, .notFound)]
      (let p := p.setMarks g { m with unresolved := m.unresolved.filter (· != part) }
       accept (match decision with
         | 0 => p.decideStatus g part .skip
         | 1 => p.decideStatus g part .unmarked
         | _ => p.decideRetry g part))

/-! ## Job end, enable, disable, reset (R118, R119) -/

/-- The context emptied of the job's lists, phase and counts. -/
def MarkContext.clearLists (m : MarkContext) : MarkContext :=
  { m with marks := [], sendList := [], unresolved := [], phase := .none, sendCounter := 0, okCount := 0, failCount := 0 }

/-- The context with every slot free and every list empty (R119). -/
def MarkContext.emptied (m : MarkContext) : MarkContext := { m.clearLists with slots := Vector.replicate 4 none }

/-- The Mark Sequencer is told that the job has ended (R118). -/
def Part.markJobEnd (p : Part) (g : Gantry) : Part :=
  let m := ((p.marks g).freeSlots (p.pendingSlots g)).clearLists
  let m := { m with slots := m.slots.map (fun s => s.map (fun f => { f with job := none })) }
  (p.setMarks g m).withdraw (isMarkText g)

/-- GANTRY ENABLE and GANTRY DISABLE act on the context (R119); an enable also clears MARK_UNDERFLOW. -/
def Part.emptyMarks (p : Part) (g : Gantry) (clearUnderflow : Bool) : Part :=
  let m := (p.marks g).emptied
  (p.setMarks g { m with underflow := m.underflow && !clearUnderflow }).withdraw (isMarkText g)

/-- The four contexts at a warm reset (R119). -/
def Part.marksWarmReset (p : Part) : Part :=
  { p with mks := p.mks.map (fun m => { m.emptied with underflow := false }) }

end Sys2Proof.Machine
end

