-- ==== Sys2Proof/Machine/Reference.lean ====
section
/-! DEFINITION. Height references: accumulator and backlog, REFERENCE_DONE, idle references (chapter 6). -/

namespace Sys2Proof.Machine

/-! ## Accumulation (R97, R99) -/

/-- The accumulator and backlog after one declared length, with the period in tenths (R99). -/
def addLength (period acc backlog length : Nat) : Nat × Nat :=
  if period = 0 then (acc, backlog) else ((acc + length) % period, min 3 (backlog + (acc + length) / period))

/-- The declared length of a LINE or ARC (R85, R99). -/
def cutLength : Record → Option Nat
  | .line _ _ _ n => some n
  | .arc _ _ _ _ _ _ n => some n
  | _ => none

/-- A counter that stays at the end of its range (R52). -/
def saturate (top n : Nat) : Nat := min top n

/-- One finished LINE or ARC counted in the job and in the accumulator; a RAPID adds nothing (R85, R99). -/
def Engine.countSegment (period : Nat) (e : Engine) (r : Record) : Engine :=
  match cutLength r with
  | some n =>
      let (acc, backlog) := addLength period e.accumulator e.backlog n
      { e with accumulator := acc, backlog := backlog,
               counters := { e.counters with burnedLength := saturate 4294967295 (e.counters.burnedLength + n) } }
  | none => e

/-- The period of a gantry in tenths of a millimetre (R97). -/
def GantryParams.periodTenths (r : GantryParams) : Nat := r.period * 10

/-! ## The REFERENCE frame (R100) -/

/-- A REFERENCE frame of the gantry is pending, a frame missed and kept included (R167; log 7). -/
def Part.referencePending (p : Part) (g : Gantry) : Bool :=
  p.flp.pending.any (fun r => r.station = gantryStation g && r.frame.kind == 0x04)

/-- A REFERENCE requested; an engine has at most one requested at a time (R100). -/
def Part.requestReference (p : Part) (g : Gantry) : Part :=
  if p.referencePending g then p else p.request (gantryStation g) .reference

/-- The pending REFERENCE frame of a gantry withdrawn (R101). -/
def Part.withdrawReference (p : Part) (g : Gantry) : Part :=
  p.withdraw (fun r => r.station = gantryStation g && r.frame.kind == 0x04)

/-- The engine enters REFERENCE with what it does afterwards (R81, R82). -/
def Part.enterReference (p : Part) (g : Gantry) (ret : RefReturn) : Part :=
  (p.setEngine g { p.engine g with state := .reference, refReturn := some ret }).requestReference g

/-! ## References in a job (R81) -/

/-- The references are done: the boundary afresh, or the pierce, or STOPPED at the pierce under a crane (R81). -/
def Part.actOnReturn (p : Part) (g : Gantry) : Part :=
  let e := p.engine g
  let p := p.setEngine g { e with refReturn := none }
  match e.refReturn with
  | some .boundary => p.emit (.boundary g true)
  | some .pierce =>
      match e.job.bind p.jobBed, e.nextRecord with
      | some b, some i =>
          if p.bedClear b then p.emit (.preparePierce g)
          else p.setEngine g { p.engine g with state := .stopped, stopPoint := some (i, 0) }
      | _, _ => p
  | none => p

/-! ## Idle references (R104, R105) -/

/-- An IDLE engine with no job to start and a backlog requests one reference (R104). -/
def Part.idleReference (p : Part) (g : Gantry) : Part :=
  let e := p.engine g
  let noJob := (p.queue g).isEmpty || e.held.office || e.bedRequest == .waiting
  if e.state = .idle ∧ e.idleReference = false ∧ 0 < e.backlog ∧ e.bedRequest ≠ .owner ∧ noJob = true then
    (p.setEngine g { e with idleReference := true }).requestReference g
  else p

/-- The engine's bed is released and its request ended (R105, R91). -/
def Part.releaseAsk (p : Part) (g : Gantry) : Part :=
  let e := p.engine g
  let q := p.setEngine g { e with bedRequest := .none }
  match e.bedRequest with
  | .none => p
  | .waiting => q.withdrawBed (.gantry g)
  | .owner => q.emits ((allBeds.filter (fun b => (p.bed b).owner == some g)).map .releaseOwner)

/-- After a REFERENCE_DONE in IDLE: a deferred job starts, or its bed is given up under OFFICE, or the next reference (R104, R105). -/
def Part.afterIdleDone (p : Part) (g : Gantry) : Part :=
  let e := p.engine g
  if e.bedRequest = .owner then
    if e.held.office then (p.releaseAsk g).emit (.idleReference g) else p.emit (.startJob g)
  else p.emit (.idleReference g)

/-! ## REFERENCE_DONE (R101) -/

/-- The backlog paid and the job's counter raised (R101). -/
def Engine.countReference (e : Engine) : Engine :=
  let e := { e with backlog := e.backlog - 1 }
  if e.job.isSome then
    { e with counters := { e.counters with referencesTaken := saturate 65535 (e.counters.referencesTaken + 1) } }
  else e

/-- REFERENCE_DONE taken by an engine (R101). -/
def Part.referenceDone (p : Part) (g : Gantry) : Part :=
  let e := (p.engine g).countReference
  if e.state = .off then p
  else
    let p := p.setEngine g e
    match e.state with
    | .reference => if e.backlog = 0 then (p.withdrawReference g).actOnReturn g else p.requestReference g
    | .idle =>
        if e.idleReference ∧ p.referencePending g = true ∧ 0 < e.backlog then p
        else ((p.withdrawReference g).setEngine g { e with idleReference := false }).afterIdleDone g
    | _ => p

end Sys2Proof.Machine
end

