-- ==== Sys2Proof/Machine/Burn.lean ====
section
/-! DEFINITION. The Burn Dispatcher: the gantry dispatch engine from enable to job end (chapter 5). -/

namespace Sys2Proof.Machine

/-! ## The gantry table (R68) -/

/-- The bed of every job in the gantry's queue lies in this reach (R68). -/
def Part.queueInReach (p : Part) (g : Gantry) (reach : List Bed) : Bool :=
  (p.queue g).all (fun j => (p.jobBed j).all reach.contains)

/-- LOAD ENTRY of table GANTRY (R68); both loads set the accumulator to 0 (R98) and hand on the notice mode (R107). -/
def loadGantry (p : Part) (index loaded reach : Nat) (w : Rect) (period retryLimit autoRelease mode depth : Nat) : Answered :=
  indexed p index fun g =>
    let yes := loaded == 1
    let beds := reachOf reach
    let windowOk := withinInt 0 3000000 w.xLo && withinInt 0 3000000 w.xHi && w.xLo ≤ w.xHi && withinInt 0 600000 w.yLo
      && withinInt 0 600000 w.yHi && w.yLo ≤ w.yHi
    let fieldsOk := windowOk && (period == 0 || within 500 99999 period) && retryLimit ≤ 7 && isYesNo autoRelease
      && (noticeMode? mode).isSome && within 8 64 depth
    let notices := (noticeMode? mode).getD .none
    let entry : GantryParams :=
      if yes then ⟨true, beds, w, period, retryLimit, autoRelease == 1, notices, depth⟩ else { p.params g with loaded := false }
    let p' := (p.setParams g entry).setEngine g { p.engine g with accumulator := 0 }
    checked p
      [(isYesNo loaded && (!yes || fieldsOk), .badField), ((p.engine g).state == .off, .inUse),
       (if yes then p.queueInReach g beds else (p.queue g).isEmpty, .state)]
      (accept (p'.setMarks g { p'.marks g with mode := if yes then notices else .none }))

/-! ## Enable, disable, hold, release (R69 to R72) -/

/-- The INIT frame of a gantry (12.2). -/
def GantryParams.initFrame (r : GantryParams) : FloorFrame := .init r.window r.retryLimit r.depth r.period r.mode

/-- GANTRY ENABLE (R69). -/
def gantryEnable (p : Part) (gantry : Nat) : Answered :=
  indexed p gantry fun g =>
    let e := p.engine g
    checked p [((e.state == .off || e.state == .fault) && (p.params g).loaded, .state)]
      (let p := ((p.setRegistration g none).emptyMarks g true).setStation (gantryStation g) {}
       let p := p.setEngine g { e with state := .init, held := { office := e.held.office }, retryCount := 0, backlog := 3,
                                       accumulator := 0, idleReference := false, refReturn := none }
       accept (p.request (gantryStation g) (p.params g).initFrame))

/-- The engine may have an arc burning or a cut stopped: PIERCE, CUT or STOPPED (R72, R91, R96). -/
def EngineState.mayBurn (s : EngineState) : Bool := s == .pierce || s == .cut || s == .stopped

/-- The record at which the cut stands (R93). -/
def Engine.current (e : Engine) : Option Nat :=
  match e.state with
  | .pierce => e.chainPierce
  | .cut => match e.outstanding with | i :: _ => some i | [] => e.nextRecord
  | .stopped =>
      match e.stopPoint, e.outstanding with
      | some (i, _), _ => some i
      | none, i :: _ => some i
      | none, [] => e.chainPierce
  | _ => none

/-- GANTRY DISABLE (R72): the arc stop first, the other frames withdrawn, the job ended, and the engine to OFF. -/
def gantryDisable (p : Part) (gantry : Nat) : Answered :=
  indexed p gantry fun g =>
    let e := p.engine g
    checked p [(e.state != .off, .state)]
      (let p := if e.state.mayBurn then p.request (gantryStation g) (.arcStop .engine) else p
       let p := p.withdraw (isDispatch g)
       let p := if e.job.isSome then p.emit (.jobEnd g .aborted e.current .off) else p.releaseAsk g
       accept (p.emit (.finishDisable g)))

/-- The last steps of GANTRY DISABLE (R72, R119, R98). -/
def Part.finishDisable (p : Part) (g : Gantry) : Part :=
  (p.emptyMarks g false).setEngine g { p.engine g with state := .off, idleReference := false, refReturn := none }

/-- GANTRY HOLD (R71). -/
def gantryHold (p : Part) (gantry : Nat) : Answered :=
  indexed p gantry fun g =>
    let e := p.engine g
    let p := if e.state = .idle ∧ e.bedRequest = .waiting then p.releaseAsk g else p
    let e := p.engine g
    accept (p.setEngine g { e with held := { e.held with office := true } })

/-- GANTRY RELEASE (R71): in IDLE the queue head is taken up, in HELD the boundary is evaluated again. -/
def gantryRelease (p : Part) (gantry : Nat) : Answered :=
  indexed p gantry fun g =>
    let e := p.engine g
    let p' := p.setEngine g { e with held := { e.held with office := false } }
    if e.held.office = false then accept p
    else match e.state with
      | .idle => accept (p'.emit (.takeUp g))
      | .held => accept (p'.emit (.boundary g false))
      | _ => accept p'

/-! ## Taking up the queue head, job start (R74 to R77) -/

/-- The job whose bed is held starts, or its start is deferred behind an idle reference (R74). -/
def Part.ownBed (p : Part) (g : Gantry) : Part :=
  let e := p.engine g
  let p := p.setEngine g { e with bedRequest := .owner }
  if e.idleReference then p else p.emit (.startJob g)

/-- An engine in IDLE takes up its queue head (R74). -/
def Part.takeUp (p : Part) (g : Gantry) : Part :=
  let e := p.engine g
  if e.state = .idle ∧ e.bedRequest = .none then
    match p.headBed g with
    | none => p.emit (.idleReference g)
    | some b =>
        if e.held.office then p.emit (.idleReference g)
        else match p.requestBed (.burn g b) with
          | (p, true) => p.ownBed g
          | (p, false) => (p.setEngine g { p.engine g with bedRequest := .waiting }).emit (.idleReference g)
  else p

/-- A grant from an offering, taken while the bed request is WAITING (R74). -/
def Part.gantryGranted (p : Part) (g : Gantry) : Part :=
  let e := p.engine g
  if e.state = .idle ∧ e.bedRequest = .waiting then p.ownBed g else p

/-- The plate check (R76): the outcome of the first condition that fails. -/
def plateCheck (r : BedRec) (tag : Tag) (condition : Condition) : Option JobOutcome :=
  if r.plate ≠ some tag then some .plateMismatch
  else if r.skeleton then some .plateState
  else if r.partlyCut = (condition == .continuation) then none else some .plateState

/-- The registration matches a job (R55). -/
def Registration.serves (r : Registration) (b : Bed) (tag : Tag) : Bool := r.bed == b && r.plate == tag

/-- The registration check (R77): a hit enters MARK, a miss requests a REGISTER. -/
def Part.checkRegistration (p : Part) (g : Gantry) (b : Bed) (tag : Tag) : Part :=
  if (p.registration g).any (·.serves b tag) then
    (p.setEngine g { p.engine g with state := .mark }).emit (.markPump g)
  else
    let p := (p.setRegistration g none).setEngine g { p.engine g with state := .register }
    p.request (gantryStation g) (.register b (p.bed b).origin)

/-- A job starts (R75): the head ACTIVE, the counters at 0, then pre-scan, plate check and registration check. -/
def Part.startJob (p : Part) (g : Gantry) : Part :=
  match (p.queue g).head? with
  | none => p
  | some j =>
      match p.record j 0 with
      | .header tag b _ _ condition _ parts =>
          let p := p.activateHead g j
          let p := p.setEngine g { p.engine g with
            state := .register, job := some j, counters := {}, credit := (p.params g).depth, retryCount := 0,
            nextRecord := some 2, partUnmarked := false }
          if p.bodyWellFormed j parts then
            let p := p.handTexts g j
            match plateCheck (p.bed b) tag condition with
            | some o => p.emit (.jobEnd g o none .idle)
            | none => p.checkRegistration g b tag
          else p.emit (.jobEnd g .format none .idle)
      | _ => p

/-- The greatest skew a registration may have (R54, R56). -/
def skewLimit : Int := 36600

/-- REGISTERED taken in REGISTER (R56). -/
def Part.registered (p : Part) (g : Gantry) (ox oy k : Int) : Part :=
  let e := p.engine g
  if e.state = .register then
    match e.job.bind p.jobBed with
    | none => p
    | some b =>
        if ¬ (0 ≤ ox ∧ ox ≤ p.hmp.hallLength ∧ 0 ≤ oy ∧ oy ≤ p.hmp.hallWidth) then p.emit (.jobEnd g .registerFail none .idle)
        else if ¬ (-skewLimit ≤ k ∧ k ≤ skewLimit) then p.emit (.jobEnd g .skew none .idle)
        else match (p.bed b).plate with
          | some t => ((p.setRegistration g (some ⟨b, t, ox, oy, k⟩)).setEngine g { e with state := .mark }).emit (.markPump g)
          | none => p
  else p

/-- REGISTER_FAILED taken in REGISTER (R56). -/
def Part.registerFailed (p : Part) (g : Gantry) : Part :=
  if (p.engine g).state = .register then p.emit (.jobEnd g .registerFail none .idle) else p

/-! ## Part boundaries (R79, R80) -/

/-- How many PART records stand from record 2 up to record `i`. -/
def Part.partsUpTo (p : Part) (j : JobNo) (i : Nat) : Nat :=
  ((List.range (i - 1)).filter (fun k => match p.record j (k + 2) with | .part .. => true | _ => false)).length

/-- A record that ends a part: a PART or the END (R48). -/
def endsPart : Record → Bool
  | .part .. => true
  | .endOfJob => true
  | _ => false

/-- The index of the next PART or END after record `i`. -/
def Part.nextPart (p : Part) (j : JobNo) (i : Nat) : Option Nat :=
  ((List.range ((p.job j).size - (i + 1))).map (· + (i + 1))).find? (fun k => endsPart (p.record j k))

/-- A part passed over by SKIP (R79): to the next boundary, or to the END, where the job ends OK (R84). -/
def Part.passOver (p : Part) (g : Gantry) (j : JobNo) (i : Nat) : Part :=
  match p.nextPart j i with
  | none => p
  | some k =>
      let e := p.engine g
      let p := p.setEngine g { e with
        nextRecord := some k,
        counters := { e.counters with partsSkipped := saturate 999 (e.counters.partsSkipped + 1) } }
      match p.record j k with
      | .endOfJob => p.emit (.jobEnd g .ok none .idle)
      | _ => p.emit (.boundary g true)

/-- The engine proceeds into the part: past the PART and its TEXT records (R79). -/
def Part.enterPart (p : Part) (g : Gantry) (j : JobNo) (i : Nat) : Part :=
  let texts := match p.record j i with | .part _ _ _ _ n => n | _ => 0
  let e := p.engine g
  let p := p.setEngine g { e with nextRecord := some (i + 1 + texts) }
  match p.record j (i + 1 + texts) with
  | .rapid _ _ => (p.setEngine g { p.engine g with state := .cut }).emit (.stream g)
  | _ => p.emit (.preparePierce g)

/-- The held reasons of a boundary as they stand (R79). -/
def Part.boundaryReasons (p : Part) (g : Gantry) (j : JobNo) (s : BoundaryStatus) : Held :=
  { office := (p.engine g).held.office, cranePresent := (p.jobBed j).any (fun b => !p.bedClear b),
    markDecision := s == .undecided }

/-- The engine enters HELD, or stays there (R79, R80); a text waiting for a retry then starts its phase (R117). -/
def Part.holdAt (p : Part) (g : Gantry) (part : Nat) (reasons : Held) (entry : Bool) : Part :=
  let p := p.setEngine g { p.engine g with state := .held, held := reasons }
  let p := if entry ∧ reasons.markDecision then p.notify (p.stateNotice g .markDecision none none) else p
  if ((p.marks g).entry part).any (·.status == .retry) ∧ (p.marks g).phase = .none then p.startRetry g part else p

/-- A part boundary (R79): the part number, the mark status, the held reasons, the references, then the part. -/
def Part.boundary (p : Part) (g : Gantry) (entry : Bool) : Part :=
  let e := p.engine g
  match e.job, e.nextRecord with
  | some j, some i =>
      let part := p.partsUpTo j i
      let e := { e with counters := { e.counters with lastPart := saturate 999 part } }
      let p := p.setEngine g e
      match (p.marks g).boundaryStatus part with
      | .skip => p.passOver g j i
      | s =>
          let p := match s with
            | .unmarked => p.setEngine g { e with partUnmarked := true }
            | .good => p.setEngine g { e with partUnmarked := false }
            | _ => p
          let reasons := p.boundaryReasons g j s
          if reasons.any then p.holdAt g part reasons entry
          else
            let p := p.setEngine g { p.engine g with held := reasons }
            if 0 < e.backlog then p.enterReference g .boundary else p.enterPart g j i
  | _, _ => p

/-! ## Pierces (R82, R83, R88) -/

/-- A pierce prepared (R82): the urgent reference check, the window, then the PIERCE frame. -/
def Part.preparePierce (p : Part) (g : Gantry) : Part :=
  let e := p.engine g
  match e.job, e.nextRecord with
  | some j, some i =>
      match p.record j i with
      | .pierce u v current =>
          if e.backlog = 3 then p.enterReference g .pierce
          else match p.transform g u v with
            | none => p.emit (.jobEnd g .travel (some i) .idle)
            | some q =>
                (p.setEngine g { e with state := .pierce, chainPierce := some i, chainDone := false }).request
                  (gantryStation g) (.pierce i q current)
      | _ => p
  | _, _ => p

/-- The counters after a pierce made (R83, R88). -/
def Engine.pierceMade (e : Engine) : Engine :=
  { e with retryCount := 0, counters := { e.counters with pierces := saturate 65535 (e.counters.pierces + 1) } }

/-- PIERCE_OK (R83, R88; R86 with a pending outcome). -/
def Part.pierceOk (p : Part) (g : Gantry) : Part :=
  let e := p.engine g
  match e.state with
  | .pierce =>
      (p.setEngine g { e.pierceMade with state := .cut, nextRecord := e.chainPierce.map (· + 1) }).emit (.stream g)
  | .stopped => if e.pendingOutcome.isSome then p else p.setEngine g e.pierceMade
  | _ => p

/-- PIERCE_FAILED (R83); discarded in STOPPED (R88). -/
def Part.pierceFailed (p : Part) (g : Gantry) : Part :=
  let e := p.engine g
  if e.state = .pierce then
    if e.retryCount < (p.params g).retryLimit then
      (p.setEngine g { e with
        retryCount := e.retryCount + 1,
        counters := { e.counters with pierceRetries := saturate 65535 (e.counters.pierceRetries + 1) } }).emit (.preparePierce g)
    else p.emit (.jobEnd g .arcFail e.chainPierce (.fault .arcFail none))
  else p

/-! ## Streaming the cut (R84 to R86) -/

/-- The records of the gantry's pending SEGMENT frames, oldest first; a frame missed and kept is among them (R167; log 7). -/
def Part.pendingSegments (p : Part) (g : Gantry) : List Nat :=
  p.flp.pending.filterMap (fun r => if isSegment g r then (match r.frame with | .segment i _ => some i | _ => none) else none)

/-- The records of outstanding whose SEGMENT frame is pending, the oldest first (R86, R87). -/
def Part.unsentRecords (p : Part) (g : Gantry) : List Nat := (p.engine g).outstanding.filter (p.pendingSegments g).contains

/-- The pending unsent SEGMENT frames withdrawn, out of outstanding, their credit returned (R86, R87). A frame whose record is outstanding
no more holds no credit (log 48). -/
def Part.withdrawSegments (p : Part) (g : Gantry) : Part :=
  let gone := p.unsentRecords g
  let e := p.engine g
  (p.setEngine g { e with outstanding := e.outstanding.filter (fun i => !gone.contains i), credit := e.credit + gone.length }).withdraw
    (isSegment g)

/-- A record one of whose points lies outside the window (R86): the arc stopped, the outcome pending. -/
def Part.travelStop (p : Part) (g : Gantry) (i : Nat) : Part :=
  let p := p.withdrawSegments g
  let p := p.setEngine g { p.engine g with state := .stopped, pendingOutcome := some .travel, pendingStop := some i }
  let p := p.request (gantryStation g) (.arcStop .travel)
  p.notify (p.stateNotice g .travel none none)

/-- The part being cut is complete (R84). -/
def Engine.partDone (e : Engine) : Engine :=
  { e with counters := { e.counters with
      partsCut := saturate 999 (e.counters.partsCut + 1),
      partsUnmarked := if e.partUnmarked then saturate 999 (e.counters.partsUnmarked + 1) else e.counters.partsUnmarked } }

/-- One segment sent (R84). -/
def Part.sendSegment (p : Part) (g : Gantry) (i : Nat) (r : Record) : Part :=
  match p.segmentFor g r with
  | none => p.travelStop g i
  | some body =>
      let e := p.engine g
      ((p.setEngine g { e with credit := e.credit - 1, outstanding := e.outstanding ++ [i], nextRecord := some (i + 1) }).request
        (gantryStation g) (.segment i body)).emit (.stream g)

/-- The engine in CUT acts on its next record (R84). -/
def Part.stream (p : Part) (g : Gantry) : Part :=
  let e := p.engine g
  match e.state, e.job, e.nextRecord with
  | .cut, some j, some i =>
      let r := p.record j i
      match r with
      | .line .. => if 0 < e.credit then p.sendSegment g i r else p
      | .arc .. => if 0 < e.credit then p.sendSegment g i r else p
      | .rapid .. => if 0 < e.credit then p.sendSegment g i r else p
      | .pierce .. => if e.outstanding.isEmpty then p.emit (.preparePierce g) else p
      | .part .. => if e.outstanding.isEmpty then (p.setEngine g e.partDone).emit (.boundary g true) else p
      | .endOfJob => if e.outstanding.isEmpty then (p.setEngine g e.partDone).emit (.jobEnd g .ok none .idle) else p
      | _ => p
  | _, _, _ => p

/-- SEGMENTS_DONE (R85): the oldest segments done, their lengths counted, their credit back. A frame of theirs that is still pending is
withdrawn, since a record removed is not sent again in the job (log 48). -/
def Part.segmentsDone (p : Part) (g : Gantry) (count : Nat) : Part :=
  let e := p.engine g
  if e.state = .cut ∨ e.state = .stopped then
    if count = 0 then p
    else if e.outstanding.length < count then p.emit (.machine g 0 true)
    else
      let done := e.outstanding.take count
      let period := (p.params g).periodTenths
      let read (i : Nat) : Record := match e.job with | some j => p.record j i | none => .empty
      let e := (done.map read).foldl (Engine.countSegment period) e
      let p := p.setEngine g { e with
        outstanding := e.outstanding.drop count, credit := e.credit + count,
        chainDone := e.chainDone || done.any (fun i => e.chainPierce.any (· < i)) }
      let p := p.withdraw (carriesRecord g done)
      if e.state = .cut then p.emit (.stream g) else p
  else p

/-! ## Arc stop and resume (R87, R89, R90) -/

/-- A PIERCE frame of the gantry is pending, a frame missed and kept included (R167; log 7). -/
def Part.piercePending (p : Part) (g : Gantry) : Bool :=
  p.flp.pending.any (fun r => r.station = gantryStation g && r.frame.kind == 0x05)

/-- An arrival taken in CUT (R87). -/
def Part.stopCut (p : Part) (g : Gantry) : Part :=
  let first := (p.unsentRecords g).head?
  let p := (p.withdrawSegments g).request (gantryStation g) (.arcStop .engine)
  let e := p.engine g
  if e.outstanding.isEmpty then
    let next := first.or e.nextRecord
    p.setEngine g { e with state := .stopped, nextRecord := next, stopPoint := next.map (fun i => (i, 0)) }
  else p.setEngine g { e with state := .stopped, stopPoint := none }

/-- An arrival taken in PIERCE (R87). -/
def Part.stopPierce (p : Part) (g : Gantry) : Part :=
  let e := p.engine g
  if p.piercePending g then
    (p.withdraw (fun r => r.station = gantryStation g && r.frame.kind == 0x05)).setEngine g
      { e with state := .stopped, stopPoint := e.chainPierce.map (fun i => (i, 0)) }
  else (p.request (gantryStation g) (.arcStop .engine)).setEngine g { e with state := .stopped, stopPoint := none }

/-- A crane comes over the bed the engine owns (R87). -/
def Part.arrival (p : Part) (g : Gantry) : Part :=
  let e := p.engine g
  match e.state with
  | .cut => let p := p.stopCut g; p.notify (p.stateNotice g .arrival none none)
  | .pierce => let p := p.stopPierce g; p.notify (p.stateNotice g .arrival none none)
  | .held => p.setEngine g { e with held := { e.held with cranePresent := true } }
  | _ => p

/-- The cut resumes from its stop point (R90): the pierce prepared again, or a RESUME of the stop record. The stop point becomes absent
in both (log 44). -/
def Part.resume (p : Part) (g : Gantry) (i fraction : Nat) : Part :=
  let e := p.engine g
  match e.job with
  | none => p
  | some j =>
      let r := p.record j i
      match r with
      | .pierce .. =>
          (p.setEngine g { e with retryCount := 0, nextRecord := some i, stopPoint := none }).emit (.preparePierce g)
      | _ =>
          match p.segmentFor g r with
          | none => p.travelStop g i
          | some body =>
              ((p.setEngine g { e with state := .cut, retryCount := 0, stopPoint := none, credit := e.credit - 1, outstanding := [i],
                                       nextRecord := some (i + 1) }).request (gantryStation g) (.resume i body fraction)).emit (.stream g)

/-- The bed the engine owns becomes clear (R80, R90). -/
def Part.clearance (p : Part) (g : Gantry) : Part :=
  let e := p.engine g
  match e.state with
  | .held => (p.setEngine g { e with held := { e.held with cranePresent := false } }).emit (.boundary g false)
  | .stopped =>
      match e.stopPoint, e.pendingOutcome with
      | some (i, f), none => p.resume g i f
      | _, _ => p
  | _ => p

/-- The record STOPPED_AT names is one of the two R89 accepts. -/
def Engine.stopAccepted (e : Engine) (i : Nat) : Bool :=
  (e.chainPierce == some i && !e.chainDone) || e.outstanding.head? == some i

/-- STOPPED_AT (R89). -/
def Part.stoppedAt (p : Part) (g : Gantry) (i fraction : Nat) : Part :=
  let e := p.engine g
  if e.state = .stopped ∧ e.stopPoint = none ∧ e.pendingOutcome = none then
    if e.stopAccepted i then
      let p := p.setEngine g { e with stopPoint := some (i, fraction), outstanding := [], credit := (p.params g).depth,
                                      nextRecord := some (i + 1) }
      if (e.job.bind p.jobBed).any p.bedClear then p.resume g i fraction else p
    else p.emit (.machine g 0 true)
  else p

/-! ## Faults (R91, R92) -/

/-- The engine without a job enters FAULT: its bed request and idle reference end (R91, R92, R106). -/
def Part.faultWithoutJob (p : Part) (g : Gantry) (cause : StateCause) (code : Option Nat) : Part :=
  let p := p.releaseAsk g
  let p := p.setEngine g { p.engine g with state := .fault, idleReference := false, refReturn := none }
  p.notify (p.stateNotice g cause code none)

/-- MACHINE: a FAULT event, a refused frame, or a report the engine refuses (R91). -/
def Part.machine (p : Part) (g : Gantry) (code : Nat) (arcStop : Bool) : Part :=
  let e := p.engine g
  let q := p.withdraw (isDispatch g)
  if e.job.isSome then
    let q := if e.state.mayBurn ∧ arcStop then q.request (gantryStation g) (.arcStop .engine) else q
    q.emit (.jobEnd g .machine e.current (.fault .machine (some code)))
  else match e.state with
    | .init => q.faultWithoutJob g .machine (some code)
    | .idle => q.faultWithoutJob g .machine (some code)
    | _ => p

/-- The gantry's station has become LOST (R92). -/
def Part.engineLost (p : Part) (g : Gantry) : Part :=
  let e := p.engine g
  if e.job.isSome then p.emit (.jobEnd g .link e.current (.fault .link none))
  else match e.state with
    | .init => p.faultWithoutJob g .link none
    | .idle => p.faultWithoutJob g .link none
    | _ => p

/-! ## Job end (R93, R94) -/

/-- The completion record and the Job Store's part of a job end (R93, R94 step 1); a pending outcome takes the place of the rule's. -/
def Part.jobEnd (p : Part) (g : Gantry) (outcome : JobOutcome) (stop : Option Nat) (goes : EndTo) : Part :=
  let e := p.engine g
  match e.job with
  | none => p
  | some j =>
      match p.record j 0 with
      | .header tag b grade thickness _ declared _ =>
          let ended := e.pendingOutcome.getD outcome
          let stop := if e.pendingOutcome.isSome then e.pendingStop else stop
          (p.settleJob g j ⟨ended, e.counters, stop⟩).emit
            (.settleStock g ⟨j, b, tag, grade, thickness, declared, ended, e.counters.partsCut, stop, goes⟩)
      | _ => p

/-- The job's fields cleared (R65, R94 step 6). -/
def Engine.clearJob (e : Engine) : Engine :=
  { e with job := none, nextRecord := none, chainPierce := none, stopPoint := none, pendingOutcome := none, pendingStop := none,
           refReturn := none, outstanding := [], credit := 0, retryCount := 0, partUnmarked := false, chainDone := false,
           bedRequest := .none, held := { office := e.held.office } }

/-- The last step of a job end: frames withdrawn, fields cleared, the state of R93 entered (R94 step 6). -/
def Part.engineEnd (p : Part) (g : Gantry) (x : JobEnding) : Part :=
  let e := (p.engine g).clearJob
  let p := p.withdraw (isDispatch g)
  match x.goes with
  | .idle => (p.setEngine g { e with state := .idle }).emit (.takeUp g)
  | .off => p.setEngine g { e with state := .off }
  | .fault cause code =>
      let p := p.setEngine g { e with state := .fault, idleReference := false }
      p.notify (p.stateNotice g cause code x.stop)

/-! ## Answers and events (R70, R73, R86, R172) -/

/-- ACK of a frame of the gantry (R70, R86): INIT in INIT, and the ARC STOP of a job end that waits for it; nothing else. -/
def Part.gantryAck (p : Part) (g : Gantry) (f : FloorFrame) : Part :=
  let e := p.engine g
  match f, e.state with
  | .init .., .init => (p.setEngine g { e with state := .idle }).emit (.takeUp g)
  | .arcStop .travel, .stopped =>
      match e.pendingOutcome with
      | some o => p.emit (.jobEnd g o e.pendingStop .idle)
      | none => p
  | _, _ => p

/-- REFUSE of a frame of the gantry (R70, R73, R91, R100, R110, R172). -/
def Part.gantryRefuse (p : Part) (g : Gantry) (f : FloorFrame) (code : Nat) : Part :=
  let e := p.engine g
  match f with
  | .init .. => if e.state = .init then p.faultWithoutJob g .init (some code) else p
  | .reference =>
      if e.state = .reference ∨ (e.state = .idle ∧ e.idleReference = true) then p.emit (.machine g code true) else p
  | .arcStop .warmReset => p
  | .arcStop _ => if e.job.isSome then p.emit (.machine g code false) else p
  | .markText s _ _ => p.markRefused g s code
  | .poll _ => p
  | .orderCancel _ => p
  | _ => if e.job.isSome then p.emit (.machine g code true) else p

/-- A FAULT event (R73, R91). -/
def Part.faultEvent (p : Part) (g : Gantry) (code : Nat) : Part :=
  match (p.engine g).state with
  | .off => p
  | .fault => p
  | _ => p.emit (.machine g code true)

/-- One event of a gantry (R73, R171). -/
def Part.gantryEvent (p : Part) (g : Gantry) : GantryEvent → Part
  | .registered ox oy k => p.registered g ox oy k
  | .registerFailed => p.registerFailed g
  | .referenceDone => p.referenceDone g
  | .pierceOk => p.pierceOk g
  | .pierceFailed => p.pierceFailed g
  | .segmentsDone n => p.segmentsDone g n
  | .markDone s ok => p.markDone g s ok
  | .stoppedAt i f => p.stoppedAt g i f
  | .fault code => p.faultEvent g code

/-! ## The dispatcher after a warm reset (R96) -/

/-- The beds of the jobs ACTIVE at the reset that had cut parts (R16, R96). -/
def Part.cutBeds (p : Part) : List Bed :=
  allGantries.filterMap (fun g =>
    let e := p.engine g
    if 0 < e.counters.partsCut then e.job.bind p.jobBed else none)

/-- The gantries to stop at a warm reset (R96, R175). -/
def Part.burningGantries (p : Part) : List Gantry := allGantries.filter (fun g => (p.engine g).state.mayBurn)

/-- The engines and registrations at a warm reset; the parameter entries are kept (R54, R96). -/
def BurnDispatcher.warmReset (s : BurnDispatcher) : BurnDispatcher := { ({} : BurnDispatcher) with params := s.params }

end Sys2Proof.Machine
end

