-- ==== Sys2Proof/Machine/Stock.lean ====
section
/-! DEFINITION. The Remnant Stock Unit: remnant records, rack slots, job end, requests on single records (9.1 to 9.4). -/

namespace Sys2Proof.Machine

/-! ## Records (R139, R142, R144) -/

/-- The record of a remnant number. -/
def Part.remnant (p : Part) (n : Nat) : Option Remnant := p.rsu.remnants.find? (·.number == n)

/-- The report of the slot a record lies in, when its state has changed: what the slot's stack holds RESERVED is a condition of the
orders bound for it (R126, R128, R144). -/
def Remnant.stateReport (before after : Remnant) : List Task :=
  match after.location with
  | .slot k _ => if before.state = after.state then [] else [.slotReport k]
  | _ => []

/-- A record replaced by a function of it, and the change reported to the Crane Order Unit (R144; log 21). -/
def Part.changeRemnant (p : Part) (n : Nat) (f : Remnant → Remnant) : Part :=
  match p.remnant n with
  | some r =>
      (p.setRemnants (updateWhere (·.number == n) f p.rsu.remnants)).emits (.remnantReport n :: r.stateReport (f r))
  | none => p

/-- A record takes a location and a state, as far as given (R143); the stacks stay as they are (log 46). -/
def Part.remnantSet (p : Part) (n : Nat) (location : Option Location) (state : Option RemnantState) : Part :=
  p.changeRemnant n (fun r => { r with location := location.getD r.location, state := state.getD r.state })

/-- A record removed, its reservation and its restack list with it (R143, R145, R149); the stacks stay as they are (log 46). -/
def Part.remnantGone (p : Part) (n : Nat) : Part :=
  if (p.remnant n).isSome then
    (p.setRemnants (p.rsu.remnants.filter (·.number != n))).emit (.remnantReport n)
  else p

/-- How many records the table holds at most (R139). -/
def remnantCapacity : Nat := 128
/-- The end of the entry sequence (R142). -/
def sequenceEnd : Nat := 4294967295

/-- A record may be created (R142). -/
def Stock.canCreate (s : Stock) : Bool := s.remnants.length < remnantCapacity && s.sequence < sequenceEnd

/-- A record created with the raised sequence value (R142). -/
def Part.createRemnant (p : Part) (r : Remnant) : Part :=
  let n := p.rsu.sequence + 1
  let p := { p with rsu := { p.rsu with sequence := n, remnants := p.rsu.remnants ++ [{ r with number := n }] } }
  p.emit (.remnantReport n)

/-- The state a record has when its reservation ends (R145, R151). -/
def Remnant.unreserve (r : Remnant) : Remnant :=
  if r.state = .reserved then { r with state := .free, reservation := none } else r

/-! ## Orders in use, as the Crane Order Unit answers (R144) -/

/-- An order in use carries this remnant (R144). -/
def Part.remnantInOrders (p : Part) (n : Nat) : Bool :=
  allOrders.any (fun k => (p.order k).any (fun o => o.live && o.load == .plate ⟨.remnant, n⟩))

/-- How many orders in use are bound for a slot (R140). -/
def Part.ordersTo (p : Part) (k : SlotNo) : Nat :=
  (allOrders.filter (fun n => (p.order n).any (fun o => o.live && o.destination == .slot k))).length

/-! ## Slots (R140, R152) -/

/-- A slot admits a piece in either orientation (R140). -/
def SlotRec.admits (r : SlotRec) (w l : Nat) : Bool :=
  match r.maxima with
  | some (mw, ml) => (w ≤ mw && l ≤ ml) || (w ≤ ml && l ≤ mw)
  | none => false

/-- The committed count of a slot (R140). -/
def Part.committed (p : Part) (k : SlotNo) : Nat := (p.slot k).stack.length + p.ordersTo k

/-- The free places of a slot (R140). -/
def Part.freePlaces (p : Part) (k : SlotNo) : Nat := if (p.slot k).loaded then 4 - p.committed k else 0

/-- The free rack places (R140). -/
def Part.freeRackPlaces (p : Part) : Nat := (allSlots.map p.freePlaces).sum

/-- The stack of a slot holds a RESERVED remnant other than number `n` (R126); a number without a record is none (log 52). -/
def Part.slotReserved (p : Part) (k : SlotNo) (n : Option Nat) : Bool :=
  (p.slot k).stack.any (fun x => some x != n && (p.remnant x).any (·.state == .reserved))

/-- The remnant at the top of a slot. -/
def SlotRec.top (r : SlotRec) : Option Nat := r.stack.getLast?

/-- A slot replaced, and the change reported to the Crane Order Unit (R144). -/
def Part.changeSlot (p : Part) (k : SlotNo) (f : SlotRec → SlotRec) : Part := (p.setSlot k (f (p.slot k))).emit (.slotReport k)

/-- A remnant pushed onto a slot, its claim as given, and located at its level (R140, R143). -/
def Part.pushSlot (p : Part) (k : SlotNo) (n : Nat) (claim : Option OrderNo) (state : Option RemnantState) : Part :=
  let level := (p.slot k).stack.length
  (p.changeSlot k (fun r => { r with stack := r.stack ++ [n], claim := claim })).remnantSet n (some (.slot k level)) state

/-- The top of a slot removed (R140, R143). -/
def SlotRec.pop (r : SlotRec) : SlotRec := { r with stack := r.stack.dropLast }

/-- An order in use names the slot as its source or destination (R141). -/
def Part.slotInOrders (p : Part) (k : SlotNo) : Bool := p.placeInOrders (.slot k)

/-- LOAD ENTRY of table SLOT (R141); a number in the stack without a record has no sides to judge, and passes (log 52). -/
def loadSlot (p : Part) (index loaded : Nat) (x y : Int) (maxWidth maxLength : Nat) : Answered :=
  indexed p index fun k =>
    let r := p.slot k
    let yes := loaded == 1
    let entry : SlotRec := { r with loaded := true, position := some ⟨x, y⟩, maxima := some (maxWidth, maxLength) }
    let admitsAll := r.stack.all (fun n => (p.remnant n).all (fun m => entry.admits m.width m.length))
    checked p
      [(isYesNo loaded && (!yes || (withinInt 0 p.hmp.hallLength x && withinInt 0 p.hmp.hallWidth y && within 1 24000 maxWidth
          && within 1 24000 maxLength)), .badField),
       (r.claim.isNone, .inUse), (!yes || admitsAll, .state), (yes || (r.stack.isEmpty && !p.slotInOrders k), .state)]
      (accept (p.changeSlot k (fun r => if yes then entry else { r with loaded := false, position := none, maxima := none })))

/-! ## Job end (R145, R146) -/

/-- The record of the plate that was burned is settled (R145); a slot whose stack holds its number keeps it there (log 46). -/
def Part.settleBurned (p : Part) (e : JobEnding) : Part :=
  match e.plate with
  | ⟨.mill, _⟩ => p
  | ⟨.remnant, n⟩ =>
      if e.partsCut ≠ 0 then p.remnantGone n
      else p.changeRemnant n (fun r =>
        let r := r.unreserve
        if e.outcome = .ok then { r with location := .unknown } else r)

/-- The remnant left by a job is recorded (R146): the number made, if one was. A creation that fails both checks of R142 gives the
cause TABLE (R147; log 38). -/
def Part.settleLeft (p : Part) (e : JobEnding) : Part × Option Nat :=
  match e.declared with
  | none => (p, none)
  | some (w, l) =>
      if e.outcome = .ok ∧ p.rsu.minSize ≤ w ∧ p.rsu.minSize ≤ l then
        if p.rsu.canCreate then
          let n := p.rsu.sequence + 1
          let p := p.createRemnant { number := 0, grade := e.grade, thickness := e.thickness, width := w, length := l,
                                     origin := some e.plate, location := .bed e.bed }
          (p.notify (.remnantCreated n e.bed e.grade e.thickness w l e.plate), some n)
        else
          let cause : TableFullCause := if p.rsu.remnants.length < remnantCapacity then .sequence else .table
          (p.notify (.remnantTableFull e.bed e.plate w l cause), none)
      else (p, none)

/-- The Remnant Stock Unit's part of a job end, and the steps of R94 that follow it. -/
def Part.settleStock (p : Part) (g : Gantry) (e : JobEnding) : Part :=
  let (p, n) := (p.settleBurned e).settleLeft e
  p.emits [.bedJobEnd e n, .releaseOwner e.bed, .markJobEnd g, .engineEnd g e]

/-! ## Requests on single records (R148 to R151) -/

/-- A location a request names, coded 0 SLOT, 1 BED in the order R148 lists the two (R190), the number in its range. -/
def location? (x : RawPlace) : Option (Bed ⊕ SlotNo) :=
  match x.code with
  | 0 => (fin? 24 x.num).map .inr
  | 1 => (fin? 8 x.num).map .inl
  | _ => none

/-- Checks 3 to 6 of R148 on a location, for a piece of these sides. -/
def Part.locationChecks (p : Part) (w l : Nat) : Bed ⊕ SlotNo → List (Bool × Reason)
  | .inl b => [(!(p.bed b).held, .inUse), ((p.bed b).loaded && (p.bed b).isEmpty, .state)]
  | .inr k =>
      [((p.slot k).claim.isNone, .inUse), ((p.slot k).loaded, .state), (p.committed k < 4, .rackFull),
       (!p.slotReserved k none && (p.slot k).admits w l, .state)]

/-- A remnant put where a request says (R148, R150). -/
def Part.putRemnant (p : Part) (n : Nat) : Bed ⊕ SlotNo → Part
  | .inl b => (p.remnantSet n (some (.bed b)) none).placePlate b ⟨.remnant, n⟩
  | .inr k => p.pushSlot k n (p.slot k).claim none

/-- A heat text by its length and its twelve characters: 1 to 12 characters, or absent (R139, R148). -/
def heat? (length : Nat) (chars : List Byte) : Option (Option (List Byte)) :=
  if length = 0 then some none else if length ≤ 12 then some (some (chars.take length)) else none

/-- REMNANT ENTER (R148). -/
def remnantEnter (p : Part) (grade thickness width length heatLength : Nat) (heatChars : List Byte) (location : RawPlace) : Answered :=
  match heat? heatLength heatChars, location? location with
  | some heat, some loc =>
      let n := p.rsu.sequence + 1
      checked p
        ([(grade ≤ 15 && within 30 1500 thickness && within 1 24000 width && within 1 24000 length, .badField),
          (p.rsu.canCreate, .full)] ++ p.locationChecks width length loc)
        (((p.createRemnant { number := 0, grade := grade, thickness := thickness, width := width, length := length, heat := heat,
                             location := .unknown }).putRemnant n loc), .ok, .remnantNumber n)
  | _, _ => refuse p .badField

/-- The remnant a number names; NOT_FOUND when the table holds none. -/
def recorded (p : Part) (n : Nat) (body : Remnant → Answered) : Answered :=
  match p.remnant n with
  | some r => body r
  | none => refuse p .notFound

/-- REMNANT REMOVE (R149). A record below the top of a claimed slot gives STATE (R144); one in transit or in an order gives IN_USE wherever
it lies (log 47). -/
def remnantRemove (p : Part) (n : Nat) : Answered :=
  recorded p n fun r =>
    let heldPlace := match r.location with
      | .slot k _ => (p.slot k).claim.isSome
      | .bed b => (p.bed b).held
      | _ => false
    let onTop := match r.location with
      | .slot k _ => (p.slot k).top == some n
      | _ => true
    checked p [(r.state != .inTransit && !p.remnantInOrders n, .inUse), (onTop, .state), (!heldPlace, .inUse)]
      (let p := match r.location with
        | .slot k _ => p.changeSlot k SlotRec.pop
        | _ => p
       accept (p.remnantGone n))

/-- The plate tag of some bed is this remnant's (R150). -/
def Part.remnantOnBed (p : Part) (n : Nat) : Bool := allBeds.any (fun b => (p.bed b).plate == some ⟨.remnant, n⟩)

/-- REMNANT RELOCATE (R150). -/
def remnantRelocate (p : Part) (n : Nat) (location : RawPlace) : Answered :=
  recorded p n fun r =>
    match location? location with
    | none => refuse p .badField
    | some loc =>
        checked p ((r.location == .unknown && !p.remnantOnBed n, .state) :: p.locationChecks r.width r.length loc)
          (accept (p.putRemnant n loc))

/-- REMNANT UNRESERVE (R151). -/
def remnantUnreserve (p : Part) (n : Nat) : Answered :=
  recorded p n fun r => checked p [(r.state == .reserved, .state)] (accept (p.changeRemnant n Remnant.unreserve))

/-! ## The stock after a warm reset (R161) -/

/-- A record after a warm reset (R161; log 30). -/
def Remnant.warmReset (r : Remnant) : Remnant :=
  let r := { r with restack := [] }
  match r.state, r.location with
  | .reserved, .hook _ => { r with state := .free, reservation := none, location := .unknown }
  | .reserved, _ => { r with state := .free, reservation := none }
  | .inTransit, _ => { r with state := .free, reservation := none, location := .unknown }
  | .free, .hook _ => { r with location := .unknown }
  | .free, _ => r

/-- The stock after a warm reset: claims absent, the remnants in transit out of the stacks at whatever level they stand, the records by
R161 (log 46, log 49). -/
def Stock.warmReset (s : Stock) : Stock :=
  let moving (n : Nat) : Bool := s.remnants.any (fun r => r.number == n && r.state == .inTransit)
  { s with remnants := s.remnants.map Remnant.warmReset,
           slots := s.slots.map (fun r => { r with claim := none, stack := r.stack.filter (fun n => !moving n) }) }

end Sys2Proof.Machine
end

