-- ==== Sys2Proof/Machine/Orders.lean ====
section
/-! DEFINITION. The Crane Order Unit: placing, release conditions, release, order events, order ends (chapter 8). -/

namespace Sys2Proof.Machine

/-! ## Placing (R123 to R125) -/

/-- The remnant number an order's load names. -/
def Load.remnant? : Load → Option Nat
  | .plate ⟨.remnant, n⟩ => some n
  | _ => none

/-- An order names a slot. -/
def namesSlot (s d : Place) : Bool := (match s with | .slot _ => true | _ => false) || (match d with | .slot _ => true | _ => false)

/-- The combinations check 3 of R123 admits. -/
def combinationOk (s d : Place) (l : Load) : Bool :=
  let isBed : Place → Bool := fun x => match x with | .bed _ => true | _ => false
  d != .hook && s != .outfeed && !(s == d && (isBed s || namesSlot s s))
    && (match l with
        | .skeleton => isBed s && d == .outfeed
        | .plate ⟨.mill, _⟩ => !namesSlot s d
        | .plate ⟨.remnant, _⟩ => d != .infeed && s != .infeed)

/-- A bed named is loaded, a slot named is loaded and served by this crane (R123, check 4). -/
def Part.placeUsable (p : Part) (c : Crane) : Place → Bool
  | .bed b => (p.bed b).loaded
  | .slot k => (p.slot k).loaded && (p.crane c).rack
  | _ => true

/-- How many orders a crane's queue holds at most (R122). -/
def orderQueueCapacity : Nat := 16

/-- The lowest-numbered free record (R124). -/
def Part.freeOrder (p : Part) : Option OrderNo := allOrders.find? (fun n => (p.order n).isNone)

/-- An order placed in the lowest free record, at the tail of its crane's queue; the first of an empty queue is evaluated (R124). -/
def Part.placeOrder (p : Part) (o : Order) : Option (Part × OrderNo) :=
  match p.freeOrder with
  | none => none
  | some n =>
      let q := p.orderQueue o.crane
      let p := (p.setOrder n (some o)).setOrderQueue o.crane (q ++ [n])
      some (if q.isEmpty then p.emit (.evalHead o.crane) else p, n)

/-- Orders placed one after another (R125). -/
def Part.placeOrders : Part → List Order → Part × List OrderNo
  | p, [] => (p, [])
  | p, o :: os =>
      match p.placeOrder o with
      | some (p', n) =>
          let (p'', ns) := p'.placeOrders os
          (p'', n :: ns)
      | none => p.placeOrders os

/-- How many order records are free. -/
def Part.freeOrders (p : Part) : Nat := (allOrders.filter (fun n => (p.order n).isNone)).length

/-- The list of the Remnant Stock Unit taken whole or refused (R125). -/
def Part.placeList (p : Part) (c : Crane) (os : List Order) : Except Reason (Part × List OrderNo) :=
  if p.freeOrders < os.length then .error .noNumber
  else if orderQueueCapacity < (p.orderQueue c).length + os.length then .error .queueFull
  else .ok (p.placeOrders os)

/-- CRANE ORDER (R123, R124). -/
def craneOrder (p : Part) (tag crane : Nat) (source destination : RawPlace) (load : RawTag) : Answered :=
  indexed p crane fun c =>
    match place? source, place? destination, load? load with
    | some s, some d, some l =>
        checked p
          [(combinationOk s d l, .badField), (p.placeUsable c s && p.placeUsable c d, .state), (p.freeOrder.isSome, .noNumber),
           ((p.orderQueue c).length < orderQueueCapacity, .queueFull)]
          (match p.placeOrder { crane := c, origin := .office, source := s, destination := d, load := l, requestTag := some tag } with
           | some (p', n) => (p', .ok, .orderPlaced n ((p.orderQueue c).length + 1))
           | none => refuse p .noNumber)
    | _, _, _ => refuse p .badField

/-! ## Release conditions (R126, R127) -/

/-- The condition on a source or destination bed, by the content its claim expects (R126, R7). -/
def Part.bedReady (p : Part) (b : Bed) (x : Expect) : Bool := !(p.bed b).held && (p.bed b).meets x

/-- What an order expects of its source bed (R128). -/
def Load.expect : Load → Expect
  | .plate t => .plate t
  | .skeleton => .skeleton

/-- The beds of an order with the content expected of each (R128). -/
def Order.claims (o : Order) : List (Bed × Expect) :=
  (match o.source with | .bed b => [(b, o.load.expect)] | _ => []) ++ (match o.destination with | .bed b => [(b, .empty)] | _ => [])

/-- The remnant record of a load. -/
def Part.loadRecord (p : Part) (l : Load) : Option Remnant := l.remnant?.bind p.remnant

/-- The load hangs on this crane (R126). -/
def Part.onHook (p : Part) (c : Crane) (l : Load) : Bool :=
  (p.loadRecord l).any (fun r => r.location == .hook c) || (p.crane c).last.any (·.loaded)

/-- The top of a source slot is the load, and no order holds the slot (R126). -/
def Part.sourceSlotReady (p : Part) (k : SlotNo) (l : Load) : Bool :=
  (p.slot k).claim.isNone && (p.slot k).top.isSome && (p.slot k).top == l.remnant?

/-- A destination slot has room for the load (R126); a load without a record has no sides to judge (R127). -/
def Part.destSlotReady (p : Part) (k : SlotNo) (l : Load) : Bool :=
  (p.slot k).claim.isNone && (p.slot k).stack.length < 4 && !p.slotReserved k l.remnant?
    && (p.loadRecord l).all (fun r => (p.slot k).admits r.width r.length)

/-- The load may be moved (R127): a record FREE or RESERVED; a REMNANT tag without a record not into a slot, but out of one whose stack
keeps its number (log 52). -/
def Part.loadReady (p : Part) (o : Order) : Bool :=
  match o.load.remnant?, p.loadRecord o.load with
  | none, _ => true
  | some _, some r => r.state == .free || r.state == .reserved
  | some _, none => match o.destination with | .slot _ => false | _ => true

/-- The crane may carry the order (R127). -/
def Part.craneReady (p : Part) (o : Order) : Bool :=
  (p.crane o.crane).state == .tracking && (!namesSlot o.source o.destination || (p.crane o.crane).rack)

/-- The held reasons of an order (R126, R127). -/
def Part.orderReasons (p : Part) (o : Order) : OrderHeld :=
  { crane := !p.craneReady o,
    load := !p.loadReady o,
    hookEmpty := o.source == .hook && !p.onHook o.crane o.load,
    sourceBed := match o.source with | .bed b => !p.bedReady b o.load.expect | _ => false,
    destBed := match o.destination with | .bed b => !p.bedReady b .empty | _ => false,
    sourceSlot := match o.source with | .slot k => !p.sourceSlotReady k o.load | _ => false,
    destSlot := match o.destination with | .slot k => !p.destSlotReady k o.load | _ => false }

/-- One of the order's own conditions, outside the Hall Map's beds, fails (R128). -/
def OrderHeld.own (h : OrderHeld) : Bool := h.crane || h.load || h.hookEmpty || h.sourceSlot || h.destSlot

/-! ## Release (R129) -/

/-- A place as the ORDER frame carries it: a bed's nominal origin, a slot's position (R129). -/
def Part.onFloor (p : Part) (x : Place) : PlaceOnFloor :=
  ⟨x, match x with
      | .bed b => (p.bed b).origin
      | .slot k => (p.slot k).position
      | _ => none⟩

/-- The ORDER frame requested (R129, R137). -/
def Part.requestOrder (p : Part) (n : OrderNo) (o : Order) : Part :=
  p.request (craneStation o.crane) (.order n (p.onFloor o.source) (p.onFloor o.destination) o.load)

/-- A place that an order claims: a bed or a slot (R129). -/
def Place.claimed : Place → Bool
  | .bed _ => true
  | .slot _ => true
  | _ => false

/-- The claim of a slot set or ended by the Remnant Stock Unit (R129, R143); no effect for another place. -/
def Part.slotClaim (p : Part) (x : Place) (claim : Option OrderNo) : Part :=
  match x with
  | .slot k => p.changeSlot k (fun r => { r with claim := claim })
  | _ => p

/-- An order released: slots claimed, the remnant IN_TRANSIT, the ORDER frame requested, the order SENT (R129). -/
def Part.release (p : Part) (n : OrderNo) : Part :=
  match p.order n with
  | none => p
  | some o =>
      let prior := (p.loadRecord o.load).map (·.state)
      let p := (p.slotClaim o.source (some n)).slotClaim o.destination (some n)
      let p := match o.load.remnant? with
        | some m => p.remnantSet m none (some .inTransit)
        | none => p
      let p := p.requestOrder n o
      p.setOrder n (some { o with state := .sent, held := {}, waiting := false, answered := false, prior := prior,
                                  sourceClaim := o.source.claimed, destClaim := o.destination.claimed })

/-! ## Evaluation (R128) -/

/-- The order's claim request leaves the waiting lists (R8, R128). -/
def Part.withdrawClaim (p : Part) (n : OrderNo) (o : Order) : Part := if o.waiting then p.withdrawBed (.order n) else p

/-- A QUEUED or HELD head evaluated (R128). -/
def Part.evalOrder (p : Part) (n : OrderNo) (o : Order) : Part :=
  let reasons := p.orderReasons o
  let claims := o.claims
  if reasons.own then
    (p.withdrawClaim n o).setOrder n (some { o with state := .held, held := reasons, waiting := false })
  else if claims.isEmpty then p.release n
  else if o.waiting then p.setOrder n (some { o with state := .held, held := reasons })
  else match p.requestBed (.claim n claims) with
    | (p, true) => p.release n
    | (p, false) => p.setOrder n (some { o with state := .held, held := reasons, waiting := true })

/-- The head of a crane's queue evaluated; a head SENT or PICKED stays as it is (R128). -/
def Part.evalHead (p : Part) (c : Crane) : Part :=
  match (p.orderQueue c).head? with
  | none => p
  | some n =>
      match p.order n with
      | none => p
      | some o => if o.state = .queued ∨ o.state = .held then p.evalOrder n o else p

/-- The head evaluated when it is a new one (R135). -/
def Part.evalNewHead (p : Part) (c : Crane) (before : Option OrderNo) : Part :=
  if (p.orderQueue c).head? = before then p else p.evalHead c

/-- The head orders that satisfy `what`, evaluated one after the other (R128). -/
def Part.evalHeadsWhere (p : Part) (what : Order → Bool) : Part :=
  p.emits ((allCranes.filter (fun c => ((p.orderQueue c).head?.bind p.order).any what)).map .evalHead)

/-- A bed's new content reported (R4, R128). -/
def Part.contentReport (p : Part) (b : Bed) : Part :=
  p.evalHeadsWhere (fun o => o.source == .bed b || o.destination == .bed b)
/-- A slot's change reported (R144, R128). -/
def Part.slotReport (p : Part) (k : SlotNo) : Part :=
  p.evalHeadsWhere (fun o => o.source == .slot k || o.destination == .slot k)
/-- A remnant's change reported (R144, R128). -/
def Part.remnantReport (p : Part) (n : Nat) : Part := p.evalHeadsWhere (fun o => o.load.remnant? == some n)

/-- The beds of an order were granted at an offering (R9, R129). -/
def Part.orderGranted (p : Part) (n : OrderNo) : Part :=
  match p.order n with
  | some o => if o.state = .held ∧ o.waiting = true then p.release n else p
  | none => p

/-! ## Answers to the ORDER frame (R130) -/

/-- ACK of an order's frame, taken by the order that has the number then (R130; log 45). -/
def Part.orderAck (p : Part) (n : OrderNo) : Part :=
  match p.order n with
  | some o => if o.state = .sent ∨ o.state = .picked then p.setOrder n (some { o with answered := true }) else p
  | none => p

/-- A place's claim released by an order's end or event: a bed through the Hall Map, a slot by the Remnant Stock Unit (R131 to R133). -/
def Part.freePlace (p : Part) (x : Place) (held : Bool) : Part :=
  if held then
    match x with
    | .bed b => p.emit (.releaseClaim b)
    | _ => p.slotClaim x none
  else p

/-- The record of a load returns to its prior state (R132, R133). -/
def Part.restoreRemnant (p : Part) (o : Order) (location : Option Location) : Part :=
  match o.load.remnant? with
  | some m => p.emit (.remnantSet m location o.prior)
  | none => p

/-- An order ends ABORTED: every claim it holds released, that of the source first with the offering it causes, the record to its prior
state, then the end (R9, R130, R133; log 42). -/
def Part.abortOrder (p : Part) (n : OrderNo) (o : Order) (cause : OrderCause) : Part :=
  let p := p.setOrder n (some { o with sourceClaim := false, destClaim := false })
  let p := (p.freePlace o.source o.sourceClaim).freePlace o.destination o.destClaim
  (p.restoreRemnant o none).emit (.orderEnd n .aborted (some cause) false)

/-- REFUSE of an order's frame, taken by the order that has the number then (R130; log 45). -/
def Part.orderRefuse (p : Part) (n : OrderNo) (code : Nat) : Part :=
  match p.order n with
  | some o => if o.state = .sent then p.abortOrder n o (.refuse code) else p
  | none => p

/-! ## Events from the crane (R131 to R134) -/

/-- PICKED of an order SENT (R131, R134): the source vacated, its claim released, the record on the hook. -/
def Part.picked (p : Part) (n : OrderNo) : Part :=
  match p.order n with
  | none => p
  | some o =>
      let p := p.setOrder n (some { o with state := .picked, sourceClaim := false })
      let onHook (p : Part) : Part :=
        match o.load.remnant? with
        | some m => p.emit (.remnantSet m (some (.hook o.crane)) none)
        | none => p
      match o.source with
      | .bed b =>
          let p := match o.load with
            | .plate _ => p.liftPlate b
            | .skeleton => p.liftSkeleton b
          onHook (p.freePlace o.source o.sourceClaim)
      | .slot k => onHook (p.changeSlot k (fun r => { r.pop with claim := none }))
      | _ => p

/-- PLACED of an order (R132, R134): the destination filled, its claim released, the order DONE. -/
def Part.placed (p : Part) (n : OrderNo) : Part :=
  match p.order n with
  | none => p
  | some o =>
      let p := p.setOrder n (some { o with sourceClaim := false, destClaim := false })
      let p := match o.destination with
        | .bed b =>
            let p := match o.load with
              | .plate t => p.placePlate b t
              | .skeleton => p
            (p.freePlace o.destination o.destClaim).restoreRemnant o (some (.bed b))
        | .slot k =>
            match o.load.remnant? with
            | some m => p.pushSlot k m none o.prior
            | none => p
        | .outfeed =>
            match o.load.remnant? with
            | some m => p.emit (.remnantGone m)
            | none => p
        | _ => p.restoreRemnant o none
      p.emit (.orderEnd n .done none false)

/-- An order event of a crane, taken when it fits its order (R131 to R134). -/
def Part.orderEvent (p : Part) (c : Crane) (k : OrderEventKind) (n : OrderNo) : Part :=
  match p.order n with
  | none => p
  | some o =>
      if o.crane = c then
        match k, o.state with
        | .picked, .sent => p.picked n
        | .placed, .sent => if o.source = .hook then p.placed n else p.emits [.picked n, .placed n]
        | .placed, .picked => p.placed n
        | .aborted, .sent => p.abortOrder n o .crane
        | .aborted, .picked => p.abortOrder n o .crane
        | _, _ => p
      else p

/-! ## The end of an order (R135, R136, R160) -/

/-- An order ends: out of its queue, its notice, its record free, the Remnant Stock Unit told; then the new head (R135). -/
def Part.orderEnd (p : Part) (n : OrderNo) (endState : OrderState) (cause : Option OrderCause) (cascade : Bool) : Part :=
  match p.order n with
  | none => p
  | some o =>
      let q := p.orderQueue o.crane
      let p := (p.withdrawClaim n o).setOrderQueue o.crane (q.filter (· != n))
      let p := p.notify (.craneOrder n o.crane o.origin o.source o.destination o.load endState cause o.requestTag)
      let p := p.setOrder n none
      let p := if o.origin = .stock then p.emit (.stockTold n endState) else p
      if cascade then p else p.emit (.evalNewHead o.crane q.head?)

/-- CRANE ORDER CANCEL (R136). -/
def craneOrderCancel (p : Part) (order : Nat) : Answered :=
  indexed p order fun n =>
    match p.order n with
    | none => refuse p .notFound
    | some o =>
        if o.state = .queued ∨ o.state = .held then accept (p.emit (.orderEnd n .cancelled none false)) else refuse p .state

/-- An order of a restack list cancelled by the end of another; one already released runs on (R160). -/
def Part.cancelRestack (p : Part) (n : OrderNo) : Part :=
  match p.order n with
  | some o => if o.state = .queued ∨ o.state = .held then p.emit (.orderEnd n .cancelled none true) else p
  | none => p

/-- The end of an order of origin STOCK told to the Remnant Stock Unit (R160). -/
def Part.stockTold (p : Part) (n : OrderNo) (endState : OrderState) : Part :=
  match p.rsu.remnants.find? (fun r => r.restack.contains n) with
  | none => p
  | some r =>
      let rest := r.restack.filter (· != n)
      let p := p.setRemnants (updateWhere (·.number == r.number) (fun x => { x with restack := rest }) p.rsu.remnants)
      if endState = .done then p else p.emits (rest.map .cancelRestack)

/-! ## Lost cranes, reset (R137, R138) -/

/-- An ORDER frame with this order number is pending (log 45). -/
def Part.orderPending (p : Part) (n : OrderNo) : Bool :=
  p.flp.pending.any (fun r => match r.frame with | .order m _ _ _ => m == n | _ => false)

/-- A crane's new state reported (R32, R128, R137): a SENT head whose frame was dropped is requested again; a held head evaluated. -/
def Part.craneReport (p : Part) (c : Crane) : Part :=
  match (p.orderQueue c).head?.bind (fun n => (p.order n).map (fun o => (n, o))) with
  | none => p
  | some (n, o) =>
      if o.state = .sent then
        if (p.crane c).state = .tracking ∧ o.answered = false ∧ p.orderPending n = false then p.requestOrder n o else p
      else p.evalHead c

/-- The cranes with an order SENT or PICKED at their head, for the ORDER CANCELs of a warm reset, C0 first (R138,
R175; log 20). -/
def Part.ordersToCancel (p : Part) : List (Crane × OrderNo) :=
  allCranes.filterMap (fun c =>
    (p.orderQueue c).head?.bind (fun n =>
      if (p.order n).any (fun o => o.state == .sent || o.state == .picked) then some (c, n) else none))

end Sys2Proof.Machine
end

