-- ==== Sys2Proof/Machine/Presence.lean ====
section
/-! DEFINITION. The Hall Map's cranes: crane entries, position reports, presence records, arrivals and clearances, due polls,
loss and recovery (chapter 2). -/

namespace Sys2Proof.Machine

/-! ## Signals (R25, R26) -/

/-- What a presence record of a bed gives when it changes: an arrival to the burn owner when it leaves ABSENT (R25); when the bed
becomes clear, a clearance to the owner, nothing under a claim, an offering when the bed is free (R26). -/
def Part.presenceSignal (p : Part) (c : Crane) (b : Bed) (before after : PresenceState) : List Task :=
  let r := p.bed b
  if before = .absent ∧ after ≠ .absent then (r.owner.map .arrival).toList
  else if before ≠ .absent ∧ after = .absent ∧ (p.presence (otherCrane c) b).state = .absent then
    match r.owner, r.claim with
    | some g, _ => [.clearance g]
    | none, some _ => []
    | none, none => [.offer b]
  else []

/-- The eight presence records of a crane replaced, without signals. -/
def Part.putPresences (p : Part) (c : Crane) (f : Bed → Presence) : Part := allBeds.foldl (fun p b => p.setPresence c b (f b)) p

/-- The eight presence records of a crane replaced, and then the signals they cause, bed by bed (R23, R25, R26; log 20). -/
def Part.changePresences (p : Part) (c : Crane) (f : Bed → Presence) : Part :=
  (p.putPresences c f).emits (allBeds.flatMap (fun b => p.presenceSignal c b (p.presence c b).state (f b).state))

/-- The presence of a crane whose position is not trusted: PRESENT on a loaded bed, ABSENT on an unloaded one (R19, R28, R33). -/
def Part.lostPresence (p : Part) (b : Bed) : Presence := ⟨if (p.bed b).loaded then .present else .absent, 0⟩

/-! ## Position reports (R21 to R24, R30) -/

/-- A coordinate clamped into 0 to `hi` (R21). -/
def clampTo (hi z : Int) : Int := if z < 0 then 0 else if hi < z then hi else z

/-- The crane is inside the bed: on or within the rectangle widened by its margin (R22). -/
def insideBed (margin : Nat) (rect : Rect) (x y : Int) : Bool :=
  rect.xLo - margin ≤ x && x ≤ rect.xHi + margin && rect.yLo - margin ≤ y && y ≤ rect.yHi + margin

/-- The judgement of R22 for a loaded bed; none for an unloaded one. -/
def Part.judge (p : Part) (c : Crane) (r : Report) (b : Bed) : Option Bool :=
  let bed := p.bed b
  if bed.loaded then bed.rect.map (fun q => insideBed (p.crane c).margin q r.x r.y) else none

/-- A presence record moved by one judgement (R23). -/
def Presence.move (s : Presence) (inside : Bool) : Presence :=
  if inside then (match s.state with | .present => s | _ => ⟨.present, 0⟩)
  else match s.state with
    | .absent => s
    | .present => ⟨.clearing, 1⟩
    | .clearing => if s.count ≤ 14 then ⟨.clearing, s.count + 1⟩ else ⟨.absent, 0⟩

/-- The due poll of a crane withdrawn: the flag, and the frame when it is pending (R24, R27). -/
def Part.withdrawDuePoll (p : Part) (c : Crane) : Part :=
  (p.setCrane c { p.crane c with duePoll := false }).withdraw (isDuePoll c)

/-- The head of a crane's queue waits with a HOOK source, so the loaded field of the last report decides (R126). -/
def Part.headFromHook (p : Part) (c : Crane) : Bool :=
  match (p.orderQueue c).head? with
  | some n => (p.order n).any (fun o => o.source == .hook)
  | none => false

/-- A report of a TRACKING crane (R22 to R26); a head with source HOOK is evaluated after the signals of the report (R128; log 43). -/
def Part.takeReport (p : Part) (c : Crane) (r : Report) : Part :=
  let hookChanged := (p.crane c).last.map (·.loaded) != some r.loaded && p.headFromHook c
  let moved (b : Bed) : Presence :=
    match p.judge c r b with
    | some inside => (p.presence c b).move inside
    | none => p.presence c b
  let p := p.setCrane c { p.crane c with last := some r, age := 0 }
  let p := (p.withdrawDuePoll c).changePresences c moved
  if hookChanged then p.emit (.evalHead c) else p

/-- The first POSITION of a LOST crane: a recovery (R30). -/
def Part.takeRecovery (p : Part) (c : Crane) (r : Report) : Part :=
  let found (b : Bed) : Presence :=
    match p.judge c r b with
    | some true => ⟨.present, 0⟩
    | some false => ⟨.clearing, 1⟩
    | none => p.presence c b
  let p := p.setCrane c { p.crane c with last := some r, age := 0, state := .tracking }
  ((p.putPresences c found).notify (.craneFound c r)).emit (.craneReport c)

/-- A POSITION taken according to the crane's state (R21). -/
def Part.takePosition (p : Part) (c : Crane) (x y : Int) (hookLow loaded : Bool) : Part :=
  let r : Report := ⟨clampTo p.hmp.hallLength x, clampTo p.hmp.hallWidth y, hookLow, loaded⟩
  match (p.crane c).state with
  | .tracking => p.takeReport c r
  | .lost => p.takeRecovery c r
  | .uninstalled => p

/-! ## Loss (R28, R29) -/

/-- A TRACKING crane enters LOST: arrivals, then the notice, then the report to the Crane Order Unit (R28, R29). -/
def Part.loseCrane (p : Part) (c : Crane) (cause : LossCause) : Part :=
  let r := p.crane c
  if r.state = .tracking then
    let p := (p.setCrane c { r with state := .lost }).withdrawDuePoll c
    (p.changePresences c p.lostPresence).emits [.notice (.craneLost c cause r.age), .craneReport c]
  else p

/-- The report age of a crane reaches its timeout (R28; log 22). -/
def Part.positionTimeout (p : Part) (c : Crane) : Part :=
  if (p.crane c).timeout ≤ (p.crane c).age then p.loseCrane c .timeout else p

/-- The report age of a TRACKING crane exceeds half its timeout: a due poll is raised (R27; log 22). -/
def Part.raiseDuePoll (p : Part) (c : Crane) : Part :=
  let r := p.crane c
  if r.state = .tracking ∧ r.timeout / 2 < r.age ∧ r.duePoll = false then
    (p.setCrane c { r with duePoll := true }).request (craneStation c) (.poll true)
  else p

/-- One millisecond passes: the report age of an installed crane rises, up to 65,535 (R24). -/
def CraneRec.tick (r : CraneRec) : CraneRec :=
  match r.state with
  | .uninstalled => r
  | _ => { r with age := min 65535 (r.age + 1) }

/-- One millisecond of the time base (R24). -/
def Part.tick (p : Part) : Part := { p with hmp := { p.hmp with cranes := p.hmp.cranes.map CraneRec.tick } }

/-! ## The crane table (R18, R19) -/

/-- The crane has an order SENT or PICKED (R18). -/
def Part.craneBusy (p : Part) (c : Crane) : Bool :=
  allOrders.any (fun n => (p.order n).any (fun o => o.crane == c && (o.state == .sent || o.state == .picked)))

/-- LOAD ENTRY of table CRANE (R18, R19); it clears the station entry of the crane as well (R162). The new state is reported with the
change, so that a waiting head withdraws its claim before a clearance can offer its bed (R32, R128, R137). -/
def loadCrane (p : Part) (index installed margin timeout rack : Nat) : Answered :=
  indexed p index fun c =>
    let r := p.crane c
    let other := p.crane (otherCrane c)
    let yes := installed == 1
    checked p
      [(isYesNo installed && isYesNo rack && within 0 50000 margin && within 50 2000 timeout, .badField),
       (rack == 0 || yes, .badField), (rack == 0 || !(other.installed && other.rack), .badField), (!p.craneBusy c, .inUse)]
      (let p := p.setStation (craneStation c) {}
       let p := p.setCrane c
         { r with installed := yes, margin := margin, timeout := timeout, rack := rack == 1, age := 0,
                  state := if yes then .lost else .uninstalled, last := if yes then r.last else none }
       let p := (p.withdrawDuePoll c).emit (.craneReport c)
       accept (p.changePresences c (fun b => if yes then p.lostPresence b else ⟨.absent, 0⟩)))

/-! ## The cranes after a warm reset (R33) -/

/-- An installed crane enters LOST at a warm reset, its presences as untrusted; an uninstalled one keeps all records ABSENT (R33). -/
def Part.cranesWarmReset (p : Part) : Part :=
  allCranes.foldl (fun p c =>
    let r := p.crane c
    let p := p.withdrawDuePoll c
    if r.installed then
      (p.setCrane c { r with state := .lost, age := 0, duePoll := false }).putPresences c p.lostPresence
    else p.putPresences c (fun _ => ⟨.absent, 0⟩)) p

end Sys2Proof.Machine
end

