-- ==== Sys2Proof/Machine/Floor.lean ====
section
/-! DEFINITION. The Floor Port: transactions, misses, the transmit arbiter, the rotation, answers, passthrough (chapter 10). -/

namespace Sys2Proof.Machine

/-! ## Passthrough (R173, R174) -/

/-- LOAD ENTRY of table PASS (R173). -/
def loadPass (p : Part) (index diagnostic parameter motion io : Nat) : Answered :=
  indexed p index fun s =>
    match passAction? diagnostic, passAction? parameter, passAction? motion, passAction? io with
    | some a, some b, some c, some d => accept (p.setPass s ⟨a, b, c, d⟩)
    | _, _, _, _ => refuse p .badField

/-- The passthrough held ends with a reply in the kept place (R174, R180). -/
def Part.endPass (p : Part) (code : Reason) (body : ReplyBody) : Part :=
  match p.flp.passHeld with
  | some tag =>
      { p with ofp := { p.ofp with replies := p.ofp.replies ++ [{ kind := kPassthrough, tag := tag, code := code, body := body, kept := true }] } }
  | none => p

/-- A frame addressed to a floor station (R174, R191): refused at once with a code, or pending, which gives no reply yet. -/
def passRequest (p : Part) (tag destination kind : Nat) (payload : List Byte) : Part × Option Reason :=
  match payload with
  | [] => (p, some .badRequest)
  | cls :: body =>
      if kind ≠ kPassthrough ∨ 238 < body.length then (p, some .badRequest)
      else match addressStation? destination, passClass? cls.toNat with
        | none, _ => (p, some .badIndex)
        | some _, none => (p, some .badField)
        | some s, some c =>
            if p.flp.passHeld.isSome then (p, some .busy)
            else if p.passBlocked s c then (p, some .blocked)
            else (({ p with flp := { p.flp with passHeld := some tag } }).request s (.pass c body), none)

/-! ## The arbiter (R167, R168) -/

/-- The first element that satisfies `what`, and the list without it. -/
def takeFirst {α : Type} (what : α → Bool) : List α → Option (α × List α)
  | [] => none
  | a :: l => if what a then some (a, l) else (takeFirst what l).map (fun (b, rest) => (b, a :: rest))

/-- The gantries in cyclic order, the one after `g` first (R168). -/
def gantriesAfter (g : Gantry) : List Gantry :=
  let a := nextGantryOf g
  let b := nextGantryOf a
  let c := nextGantryOf b
  [a, b, c, g]

/-- A pending frame of a class exists. -/
def FloorPort.hasClass (f : FloorPort) (n : Nat) : Bool := f.pending.any (fun r => r.frame.cls == n)

/-- The frame granted in a class that is served round robin over the gantries (R168), with the gantry and what stays pending. -/
def FloorPort.pickGantry (f : FloorPort) (n : Nat) (last : Gantry) : Option (Gantry × FloorRequest × List FloorRequest) :=
  (gantriesAfter last).findSome? (fun g =>
    (takeFirst (fun r => r.frame.cls == n && r.station = gantryStation g) f.pending).map (fun (r, rest) => (g, r, rest)))

/-- The pending frame the arbiter grants, and the Floor Port without it (R167, R168): the highest class, and within it the oldest
request, or the next gantry in turn for classes 4 and 5. -/
def FloorPort.pick (f : FloorPort) : Option (FloorRequest × FloorPort) :=
  let oldest (n : Nat) : Option (FloorRequest × FloorPort) :=
    (takeFirst (fun r => r.frame.cls == n) f.pending).map (fun (r, rest) => (r, { f with pending := rest }))
  if f.hasClass 1 then oldest 1
  else if f.hasClass 2 then oldest 2
  else if f.hasClass 3 then oldest 3
  else if f.hasClass 4 then
    (f.pickGantry 4 f.lastCommand).map (fun (g, r, rest) => (r, { f with pending := rest, lastCommand := g }))
  else if f.hasClass 5 then
    (f.pickGantry 5 f.lastMark).map (fun (g, r, rest) => (r, { f with pending := rest, lastMark := g }))
  else oldest 6

/-! ## The rotation (R169) -/

/-- The crane of a crane turn: the next one if eligible, else the other (R169). -/
def Part.turnCrane (p : Part) : Option Crane :=
  [p.flp.nextCrane, otherCrane p.flp.nextCrane].find? (fun c => p.eligible (craneStation c))

/-- The gantry of a gantry turn: the first eligible from the next one onward (R169). -/
def Part.turnGantry (p : Part) : Option Gantry :=
  let g := p.flp.nextGantry
  (g :: (gantriesAfter g).take 3).find? (fun g => p.eligible (gantryStation g))

/-- A rotation poll of a crane: the next crane becomes the other one, the next turn a gantry turn (R169). -/
def FloorPort.pollCrane (f : FloorPort) (c : Crane) : Station × FloorPort :=
  (craneStation c, { f with turn := .gantry, nextCrane := otherCrane c })

/-- A rotation poll of a gantry: the next gantry becomes the one after it, the next turn a crane turn (R169). -/
def FloorPort.pollGantry (f : FloorPort) (g : Gantry) : Station × FloorPort :=
  (gantryStation g, { f with turn := .crane, nextGantry := nextGantryOf g })

/-- The station the rotation polls next, and the rotation after it; a turn without an eligible station passes to the other kind (R169). -/
def Part.rotation (p : Part) : Option (Station × FloorPort) :=
  match p.flp.turn, p.turnCrane, p.turnGantry with
  | .crane, some c, _ => some (p.flp.pollCrane c)
  | .crane, none, some g => some (p.flp.pollGantry g)
  | .gantry, _, some g => some (p.flp.pollGantry g)
  | .gantry, some c, none => some (p.flp.pollCrane c)
  | _, none, none => none

/-! ## Granting the line (R163, R167, R174) -/

/-- A frame sent: the transaction in flight, with the answer window in force (R163). -/
def FloorPort.send (f : FloorPort) (r : FloorRequest) : FloorPort := { f with inFlight := some ⟨r, f.answerWindow⟩ }

/-- A grant to a pending frame; a passthrough is judged again, and one now refused ends with BLOCKED and is not sent (R174; log 18). -/
def Part.grantPending (p : Part) (r : FloorRequest) (f : FloorPort) : Part :=
  let p := { p with flp := f }
  match r.frame with
  | .pass cls _ => if p.passBlocked r.station cls then p.endPass .blocked .none else { p with flp := f.send r }
  | _ => { p with flp := f.send r }

/-- The Floor Port grants the line when it is free and silent, to a pending frame or to the rotation (R167, R169). -/
def Part.floorGrant (p : Part) : Part :=
  if p.flp.inFlight.isSome ∨ p.flp.silence = true then p
  else match p.flp.pick with
    | some (r, f) => p.grantPending r f
    | none =>
        match p.rotation with
        | some (s, f) => { p with flp := f.send ⟨s, .poll false⟩ }
        | none => p

/-! ## Misses and loss (R164, R165) -/

/-- The slots of MARK TEXT frames of a gantry among some requests (R110, R165). -/
def markSlotsOf (rs : List FloorRequest) : List (Fin 4) :=
  rs.filterMap (fun r => match r.frame with | .markText s _ _ => some s | _ => none)

/-- The Mark Sequencer frees the slots of frames withdrawn or dropped (R110, R165). -/
def Part.dropMarks (p : Part) (s : Station) (rs : List FloorRequest) : Part :=
  match stationGantry? s with
  | some g => p.setMarks g ((p.marks g).freeSlots (markSlotsOf rs))
  | none => p

/-- The frames withdrawn at a loss: those pending for the station, but not a passthrough (R165). -/
def lostWith (s : Station) (r : FloorRequest) : Bool := r.station = s && r.frame.cls != 6

/-- The owner of a station told of its loss (R165). -/
def lossTask (s : Station) : List Task :=
  match stationGantry? s, stationCrane? s with
  | some g, _ => [.engineLost g]
  | none, some c => [.craneStationLost c]
  | none, none => []

/-- A station becomes LOST with its third miss: frames withdrawn, slots freed, the owner told, then the notice (R165). -/
def Part.loseStation (p : Part) (r : FloorRequest) (cause : MissCause) : Part :=
  let s := r.station
  let gone := r :: p.flp.pending.filter (lostWith s)
  let p := (p.setStation s ⟨3, true, some cause⟩).withdraw (lostWith s)
  (p.dropMarks s gone).emits (lossTask s ++ [.notice (.stationLost (stationAddress s) (some cause) r.frame.kind)])

/-- A missed frame is kept at the head, unchanged; a due poll while its request stands; a rotation poll is not kept (R164, R27).
A missed ARC STOP of a station that has another one pending is taken as that one, in its place (R167; log 19). -/
def Part.keepFrame (p : Part) (r : FloorRequest) : Part :=
  let kept (f : FloorPort) : FloorPort := { f with pending := r :: f.pending }
  match r.frame with
  | .poll false => p
  | .poll true => if (stationCrane? r.station).any (fun c => (p.crane c).duePoll) then { p with flp := kept p.flp } else p
  | .arcStop a =>
      if p.flp.pending.any (·.isArcStop r.station) then { p with flp := p.flp.request r.station (.arcStop a) }
      else { p with flp := kept p.flp }
  | _ => { p with flp := kept p.flp }

/-- A miss of a frame that is counted against its station (R164, R165). -/
def Part.countMiss (p : Part) (r : FloorRequest) (cause : MissCause) : Part :=
  let st := p.station r.station
  if st.lost then (p.setStation r.station { st with cause := some cause }).dropMarks r.station [r]
  else if st.misses + 1 < 3 then (p.setStation r.station { st with misses := st.misses + 1, cause := some cause }).keepFrame r
  else p.loseStation r cause

/-- The frame is a poll. -/
def FloorFrame.isPoll (f : FloorFrame) : Bool := f.kind == 0x01

/-- A transaction ends as a miss (R163, R164); the line then stays silent for a window. A command frame is kept although its gantry has
been disabled meanwhile (R164; log 39). -/
def Part.miss (p : Part) (t : Transaction) (cause : MissCause) : Part :=
  let p := { p with flp := { p.flp with inFlight := none, silence := true } }
  let r := t.request
  match r.frame with
  | .pass _ _ => p.endPass .noAnswer .none
  | f => if f.isPoll ∧ p.eligible r.station = false then p else p.countMiss r cause

/-- The window of the transaction in flight expires: silent, or an answer begun and broken off (R163). -/
def Part.windowExpiry (p : Part) (begun : Bool) : Part :=
  match p.flp.inFlight with
  | some t => p.miss t (if begun then .badAnswer else .silent)
  | none => p

/-- The silence after a miss has lasted one window (R163). -/
def Part.silenceEnd (p : Part) : Part := { p with flp := { p.flp with silence := false } }

/-! ## Answers (R163, R166, R170 to R172, R192) -/

/-- What the answer says fits the frame it answers (R163, R192). -/
def answerFits (s : Station) (f : FloorFrame) (a : FloorAnswer) : Bool :=
  match f.isPoll, stationGantry? s, a with
  | true, none, .position _ _ _ _ ev => ev.all (fun e => e.2 < 32)
  | true, some _, .events es => es.length ≤ 4
  | false, _, .ack => true
  | false, _, .refuse _ => true
  | _, _, _ => false

/-- A good answer finds a LOST station, and clears the misses of any other (R164, R166). -/
def Part.foundStation (p : Part) (s : Station) : Part :=
  let st := p.station s
  if st.lost then (p.setStation s {}).notify (.stationFound (stationAddress s))
  else p.setStation s { st with misses := 0 }

/-- A POSITION to the Hall Map, then its order event to the Crane Order Unit (R170). -/
def Part.deliverPosition (p : Part) (c : Crane) (x y : Int) (hookLow loaded : Bool) (event : Option (OrderEventKind × Nat)) : Part :=
  let p := p.takePosition c x y hookLow loaded
  match event with
  | some (k, n) => p.emits ((fin? 32 n).map (.orderEvent c k)).toList
  | none => p

/-- ACK to the requester of a frame (R172). -/
def Part.deliverAck (p : Part) (s : Station) (f : FloorFrame) : Part :=
  match f, stationGantry? s with
  | .order n _ _ _, _ => p.orderAck n
  | .orderCancel _, _ => p
  | f, some g => p.gantryAck g f
  | _, none => p

/-- REFUSE to the requester of a frame (R172). -/
def Part.deliverRefuse (p : Part) (s : Station) (f : FloorFrame) (code : Nat) : Part :=
  match f, stationGantry? s with
  | .order n _ _ _, _ => p.orderRefuse n code
  | .orderCancel _, _ => p
  | f, some g => p.gantryRefuse g f code
  | _, none => p

/-- A good answer handed on (R170 to R172). -/
def Part.deliver (p : Part) (s : Station) (f : FloorFrame) (a : FloorAnswer) : Part :=
  match a with
  | .position x y hookLow loaded event =>
      match stationCrane? s with
      | some c => p.deliverPosition c x y hookLow loaded event
      | none => p
  | .events es =>
      match stationGantry? s with
      | some g => p.emits (es.map (.gantryEvent g))
      | none => p
  | .ack => p.deliverAck s f
  | .refuse code => p.deliverRefuse s f code
  | .other => p

/-- An answer whose last byte has arrived, judged against the transaction in flight (R163, R192); without one it is discarded. -/
def Part.answered (p : Part) (frame : AnswerFrame) (content : FloorAnswer) : Part :=
  match p.flp.inFlight with
  | none => p
  | some t =>
      let s := t.request.station
      if stationAddress s ≠ frame.address then p.miss t .badAnswer
      else match t.request.frame with
        | .pass _ _ =>
            if frame.payload.length ≤ 238 then
              ({ p with flp := { p.flp with inFlight := none } }).endPass .ok (.answer frame.kind frame.payload)
            else p.miss t .badAnswer
        | f =>
            if answerFits s f content then
              (({ p with flp := { p.flp with inFlight := none } }).foundStation s).deliver s f content
            else p.miss t .badAnswer

/-- Bytes of an answer that fail a check (R163, R192): a bad answer, unless they spell a frame that passes. -/
def Part.badAnswer (p : Part) (bytes : List Byte) : Part :=
  match parseFloorFrame bytes, p.flp.inFlight with
  | some f, _ => p.answered f (parseAnswer f.kind f.payload)
  | none, some t => p.miss t .badAnswer
  | none, none => p

/-! ## The Floor Port at a warm reset (R175) -/

/-- A passthrough is pending or in flight. -/
def FloorPort.passOpen (f : FloorPort) : Bool :=
  f.hasClass 6 || f.inFlight.any (fun t => t.request.frame.cls == 6)

/-- The Floor Port's own part: the transaction and every pending frame ended, stations and turns as after a cold reset; the pass
table, the answer window, the passthrough's place and a silence still due are kept (R175). -/
def FloorPort.warmReset (f : FloorPort) : FloorPort :=
  { ({} : FloorPort) with passTable := f.passTable, answerWindow := f.answerWindow, passHeld := f.passHeld, silence := f.silence }

/-- The frames a warm reset requests: an ARC STOP to each gantry that may burn, an ORDER CANCEL to each crane at work (R175),
C0 before C1 (log 20). -/
def Part.resetFrames (p : Part) (stops : List Gantry) (cancels : List (Crane × OrderNo)) : Part :=
  let p := stops.foldl (fun p g => p.request (gantryStation g) (.arcStop .warmReset)) p
  cancels.foldl (fun p (c, n) => p.request (craneStation c) (.orderCancel n)) p

end Sys2Proof.Machine
end

