-- ==== Sys2Proof/Machine/Agenda.lean ====
section
/-! DEFINITION. The hand-offs between the blocks, run inside one command in the order of the rules (log 6). -/

namespace Sys2Proof.Machine

/-- One hand-off, taken by the block whose rule it names. -/
def Part.micro (p : Part) : Task → Part
  | .offer b => p.offer b
  | .contentReport b => p.contentReport b
  | .releaseOwner b => p.releaseOwner b
  | .releaseClaim b => p.releaseClaim b
  | .craneReport c => p.craneReport c
  | .evalHead c => p.evalHead c
  | .evalNewHead c before => p.evalNewHead c before
  | .slotReport k => p.slotReport k
  | .remnantReport n => p.remnantReport n
  | .orderGranted n => p.orderGranted n
  | .gantryGranted g => p.gantryGranted g
  | .takeUp g => p.takeUp g
  | .idleReference g => p.idleReference g
  | .startJob g => p.startJob g
  | .jobEnd g outcome stop goes => p.jobEnd g outcome stop goes
  | .settleStock g e => p.settleStock g e
  | .bedJobEnd e remnant => p.bedJobEnd e remnant
  | .markJobEnd g => p.markJobEnd g
  | .engineEnd g e => p.engineEnd g e
  | .finishDisable g => p.finishDisable g
  | .markPump g => p.markPump g
  | .boundary g entry => p.boundary g entry
  | .stream g => p.stream g
  | .preparePierce g => p.preparePierce g
  | .arrival g => p.arrival g
  | .clearance g => p.clearance g
  | .machine g code arcStop => p.machine g code arcStop
  | .engineLost g => p.engineLost g
  | .craneStationLost c => p.loseCrane c .station
  | .orderEnd n endState cause cascade => p.orderEnd n endState cause cascade
  | .stockTold n endState => p.stockTold n endState
  | .cancelRestack n => p.cancelRestack n
  | .picked n => p.picked n
  | .placed n => p.placed n
  | .remnantSet n location state => p.remnantSet n location state
  | .remnantGone n => p.remnantGone n
  | .gantryEvent g e => p.gantryEvent g e
  | .orderEvent c k n => p.orderEvent c k n
  | .notice n => p.notify n

/-- The hand-off at the front, then those it makes before the ones that already waited. -/
def Part.runFirst (p : Part) (t : Task) (rest : List Task) : Part :=
  let q := ({ p with agenda := [] }).micro t
  { q with agenda := q.agenda ++ rest }

/-- Hand-offs run until none is left, or the count is used up (log 6). -/
def settle : Nat → Part → Part
  | 0, p => p
  | n + 1, p =>
      match p.agenda with
      | [] => p
      | t :: rest => settle n (p.runFirst t rest)

/-- Every hand-off of a command run; the part then has none left (log 6). -/
def Part.settled (p : Part) : Part := { settle Config.agendaFuel p with agenda := [] }

end Sys2Proof.Machine
end

