-- ==== Sys2Proof/Machine/Resets.lean ====
section
/-! DEFINITION. The warm reset of the whole part (R186), by the parts of its blocks. -/

namespace Sys2Proof.Machine

/-- The Office Port's own part: notices, NOTICE_LOST and sequence; receiver, waiting place, replies and transmitter are kept (R186). -/
def OfficePort.warmReset (o : OfficePort) : OfficePort := { o with notices := [], noticeLost := false, sequence := 0 }

/-- A passthrough pending or in flight ends with NO_ANSWER at a warm reset (R175). -/
def Part.endPassAtReset (p : Part) : Part := if p.flp.passOpen then p.endPass .noAnswer .none else p

/-- The warm reset (R16, R33, R53, R96, R119, R138, R161, R175, R186): the lists the blocks hand to one another are taken first. -/
def Part.warmReset (p : Part) : Part :=
  let cut := p.cutBeds
  let stops := p.burningGantries
  let cancels := p.ordersToCancel
  let p := (((p.bedsWarmReset cut).cranesWarmReset).marksWarmReset).endPassAtReset
  let p := { p with
    jst := p.jst.warmReset, bds := p.bds.warmReset, cou := {}, rsu := p.rsu.warmReset, flp := p.flp.warmReset, ofp := p.ofp.warmReset }
  p.resetFrames stops cancels

end Sys2Proof.Machine
end

