-- ==== Sys2Proof/Machine/Encode.lean ====
section
/-! DEFINITION. The bytes of what leaves the part: floor frames (12.2), replies, table entries and notices (12.1, R190). Fields
stand in the order their rules name them, each with the size its type gives; an absent value keeps its size, and its bytes are a
free value (log 10). -/

namespace Sys2Proof.Machine

/-! ## Fields -/

def byte1 (n : Nat) : List Byte := toBytes 1 n
def byte2 (n : Nat) : List Byte := toBytes 2 n
def byte4 (n : Nat) : List Byte := toBytes 4 n
def yesNo (b : Bool) : List Byte := [yesNoByte b]
/-- A field of two values named in this order, the first coded 0 (R190): held and not held (R121), raised and not raised (R17), set and
clear (R107, R162). `b` says that the first holds. -/
def firstNamed (b : Bool) : List Byte := [yesNoByte !b]

/-- The bytes of an absent value of this size: free (log 10). -/
def absentBytes (size : Nat) : List Byte := (List.range size).map Config.absentByte

/-- A field that may be absent. -/
def optional {α : Type} (size : Nat) (f : α → List Byte) : Option α → List Byte
  | some a => f a
  | none => absentBytes size

/-- A set drawn from an enumeration: bit i for the value coded i (R190). -/
def setByte (bs : List Bool) : List Byte := byte1 (bs.foldr (fun b n => 2 * n + b.toNat) 0)

def Point.bytes (q : Point) : List Byte := coordBytes q.x ++ coordBytes q.y
def Rect.bytes (r : Rect) : List Byte := coordBytes r.xLo ++ coordBytes r.xHi ++ coordBytes r.yLo ++ coordBytes r.yHi

/-- A place: its code (12.2) and its number, 0 where it has none (R189). -/
def Place.bytes : Place → List Byte
  | .bed b => [0] ++ byte1 b.val
  | .slot k => [1] ++ byte1 k.val
  | .infeed => [2, 0]
  | .outfeed => [3, 0]
  | .hook => [4, 0]

/-- A load: a stock tag, or kind 3 for SKELETON (12.2). -/
def Load.bytes : Load → List Byte
  | .plate t => t.bytes
  | .skeleton => [3, 0, 0, 0, 0]

/-- A remnant's location: its code in the order of R139, a number and a level, absent where it has none (log 9, log 10). -/
def Location.bytes : Location → List Byte
  | .slot k level => [0] ++ byte1 k.val ++ byte1 level
  | .bed b => [1] ++ byte1 b.val ++ absentBytes 1
  | .hook c => [2] ++ byte1 c.val ++ absentBytes 1
  | .unknown => [3] ++ absentBytes 2

def Held.bits (h : Held) : List Bool := [h.office, h.cranePresent, h.markDecision]
def ReportedHeld.bytes (h : ReportedHeld) : List Byte := setByte (h.stored.bits ++ [h.bedClaimed])
def OrderHeld.bytes (h : OrderHeld) : List Byte :=
  setByte [h.crane, h.load, h.hookEmpty, h.sourceBed, h.destBed, h.sourceSlot, h.destSlot]

/-- What aborted an order: REFUSE with its code, or CRANE (R121). -/
def OrderCause.bytes : OrderCause → List Byte
  | .refuse code => [0] ++ byte1 code
  | .crane => [1] ++ absentBytes 1

/-- A list with its length before it; the length takes `size` bytes (log 10). -/
def listBytes {α : Type} (size : Nat) (f : α → List Byte) (l : List α) : List Byte := toBytes size l.length ++ l.flatMap f

/-! ## Floor frames (12.2) -/

/-- The SEGMENT payload after the record index: a RAPID has no feed class and no length. -/
def SegmentBody.bytes : SegmentBody → List Byte
  | .line q feed n => [6] ++ q.bytes ++ byte1 feed ++ byte4 n
  | .arc q c ccw feed n => [7] ++ q.bytes ++ c.bytes ++ yesNo ccw ++ byte1 feed ++ byte4 n
  | .rapid q => [8] ++ q.bytes

def PlaceOnFloor.bytes (x : PlaceOnFloor) : List Byte :=
  x.place.bytes ++ (match x.place with
    | .bed _ => optional 8 Point.bytes x.position
    | .slot _ => optional 8 Point.bytes x.position
    | _ => [])

/-- The payload of a frame the controller sends on the floor line. -/
def FloorFrame.payload : FloorFrame → List Byte
  | .poll _ => []
  | .init w retry depth period mode => w.bytes ++ byte1 retry ++ byte1 depth ++ byte4 period ++ byte1 mode.ctorIdx
  | .register b o => byte1 b.val ++ optional 8 Point.bytes o
  | .reference => []
  | .pierce i q current => byte2 i ++ q.bytes ++ byte1 current
  | .segment i body => byte2 i ++ body.bytes
  | .resume i body fraction => byte2 i ++ body.bytes ++ byte1 fraction
  | .arcStop _ => []
  | .markText s q text => byte1 s.val ++ q.bytes ++ listBytes 1 (fun b => [b]) text
  | .order n s d l => byte1 n.val ++ s.bytes ++ d.bytes ++ l.bytes
  | .orderCancel n => byte1 n.val
  | .pass _ payload => payload

/-! ## Table entries (R183) -/

def BedRequest.bytes : BedRequest → List Byte
  | .burn g _ => [0] ++ byte1 g.val
  | .claim n _ => [1] ++ byte1 n.val

def BedRec.bytes (r : BedRec) : List Byte :=
  yesNo r.loaded ++ optional 16 Rect.bytes r.rect ++ optional 8 Point.bytes r.origin ++ optional 5 Tag.bytes r.plate ++ yesNo r.skeleton
    ++ yesNo r.partlyCut ++ optional 1 (fun (g : Gantry) => byte1 g.val) r.owner ++ optional 1 (fun (n : OrderNo) => byte1 n.val) r.claim
    ++ listBytes 1 BedRequest.bytes r.waiting

def reachByte (bs : List Bed) : List Byte :=
  setByte (([0, 1, 2, 3, 4, 5, 6, 7] : List Bed).map (fun b => bs.contains b))

def GantryParams.bytes (r : GantryParams) : List Byte :=
  reachByte r.reach ++ r.window.bytes ++ byte4 r.period ++ byte1 r.retryLimit ++ yesNo r.autoRelease ++ byte1 r.mode.ctorIdx ++ byte1 r.depth

def Report.bytes (r : Report) : List Byte := coordBytes r.x ++ coordBytes r.y ++ yesNo r.hookLow ++ yesNo r.loaded

def CraneRec.bytes (r : CraneRec) : List Byte :=
  yesNo r.installed ++ byte2 r.margin ++ byte2 r.timeout ++ yesNo r.rack ++ byte1 r.state.ctorIdx ++ optional 10 Report.bytes r.last
    ++ byte2 r.age ++ firstNamed r.duePoll

def SlotRec.bytes (r : SlotRec) (committed : Nat) : List Byte :=
  yesNo r.loaded ++ optional 8 Point.bytes r.position ++ optional 4 (fun m => byte2 m.1 ++ byte2 m.2) r.maxima ++ listBytes 1 byte4 r.stack
    ++ optional 1 (fun (n : OrderNo) => byte1 n.val) r.claim ++ byte1 committed

def Registration.bytes (r : Registration) : List Byte :=
  yesNo true ++ byte1 r.bed.val ++ r.plate.bytes ++ coordBytes r.ox ++ coordBytes r.oy ++ coordBytes r.k

def MarkSlot.bytes (r : MarkSlot) : List Byte :=
  yesNo true ++ optional 1 (fun (j : JobNo) => byte1 j.val) r.job ++ byte2 r.part ++ byte2 r.sendOrder

def Order.bytes (n : OrderNo) (r : Order) (position : Option Nat) : List Byte :=
  byte1 n.val ++ byte1 r.crane.val ++ byte1 r.origin.ctorIdx ++ r.source.bytes ++ r.destination.bytes ++ r.load.bytes
    ++ optional 2 byte2 r.requestTag ++ byte1 r.state.ctorIdx ++ r.held.bytes ++ yesNo r.waiting ++ firstNamed r.sourceClaim
    ++ firstNamed r.destClaim
    ++ optional 1 (fun (s : RemnantState) => byte1 s.ctorIdx) r.prior ++ yesNo r.answered ++ optional 2 OrderCause.bytes r.cause
    ++ optional 1 byte1 position

/-- A heat text: its length, 0 when absent, then 12 characters (12.1). -/
def heatBytes (h : Option (List Byte)) : List Byte :=
  let cs := h.getD []
  byte1 cs.length ++ (cs ++ List.replicate 12 0).take 12

def Remnant.bytes (r : Remnant) : List Byte :=
  byte4 r.number ++ byte1 r.grade ++ byte2 r.thickness ++ byte2 r.width ++ byte2 r.length ++ heatBytes r.heat
    ++ optional 5 Tag.bytes r.origin ++ r.location.bytes ++ byte1 r.state.ctorIdx ++ optional 2 byte2 r.reservation
    ++ listBytes 1 (fun (n : OrderNo) => byte1 n.val) r.restack

/-- One entry of a READ ENTRY reply: its index, then the fields of its table (R183). -/
def Entry.bytes : Entry → List Byte
  | .bed b r => byte1 b.val ++ r.bytes
  | .gantry g params acc backlog =>
      byte1 g.val ++ yesNo params.isSome ++ optional 25 GantryParams.bytes params ++ byte4 acc ++ byte1 backlog
  | .crane c r => byte1 c.val ++ r.bytes
  | .slot k r committed => byte1 k.val ++ r.bytes committed
  | .pass s r => byte1 s.val ++ byte1 r.diagnostic.ctorIdx ++ byte1 r.parameter.ctorIdx ++ byte1 r.motion.ctorIdx ++ byte1 r.io.ctorIdx
  | .band i r => byte1 i.val ++ yesNo r.loaded ++ byte2 r.bound ++ byte2 r.margin
  | .controller w l wd p r m => byte1 0 ++ byte2 w ++ coordBytes l ++ coordBytes wd ++ byte2 p ++ byte1 r ++ byte2 m
  | .presence i r => byte1 i.val ++ byte1 r.state.ctorIdx ++ byte1 r.count
  | .registration g r => byte1 g.val ++ (match r with | some x => x.bytes | none => yesNo false ++ absentBytes 18)
  | .job j state on count pages position =>
      byte1 j.val ++ byte1 state.ctorIdx ++ optional 1 (fun (g : Gantry) => byte1 g.val) on ++ byte2 count ++ pages.flatMap byte2
        ++ optional 1 byte1 position
  | .mark g slots phase send unresolved underflow mode =>
      byte1 g.val ++ slots.flatMap (fun s => match s with | some x => x.bytes | none => yesNo false ++ absentBytes 5) ++ byte1 phase.ctorIdx
        ++ listBytes 2 byte2 send ++ listBytes 2 byte2 unresolved ++ firstNamed underflow ++ byte1 mode.ctorIdx
  | .order n r position => byte1 n.val ++ yesNo r.isSome ++ (match r with | some o => o.bytes n position | none => [])
  | .remnant i r => byte1 i ++ r.bytes
  | .station s r eligible => byte1 s.val ++ byte1 r.misses ++ firstNamed r.lost ++ optional 1 (fun (c : MissCause) => byte1 c.ctorIdx) r.cause ++ yesNo eligible

/-! ## Replies (R179, R190) -/

def GantryStatus.bytes (r : GantryStatus) : List Byte :=
  byte1 r.state.ctorIdx ++ r.held.bytes ++ byte1 r.queueLength ++ byte1 r.backlog ++ firstNamed r.underflow

def StatusReport.bytes (r : StatusReport) : List Byte :=
  r.gantries.flatMap GantryStatus.bytes ++ r.cranes.flatMap (fun c => byte1 c.ctorIdx) ++ byte2 r.freePages ++ byte1 r.freeJobs
    ++ optional 1 (fun (j : JobNo) => byte1 j.val) r.completionHead ++ byte1 r.freeRackPlaces ++ firstNamed r.noticeLost

/-- The fields of an OK reply. -/
def ReplyBody.bytes : ReplyBody → List Byte
  | .none => []
  | .jobOpened j n => byte1 j.val ++ byte2 n
  | .records rs => rs.flatMap encodeRecord
  | .enqueued k => byte1 k
  | .acknowledged j left head => byte1 j.val ++ byte1 left ++ optional 1 (fun (h : JobNo) => byte1 h.val) head
  | .released j r left head => byte1 j.val ++ encodeRecord r ++ byte1 left ++ optional 1 (fun (h : JobNo) => byte1 h.val) head
  | .orderPlaced n k => byte1 n.val ++ byte1 k
  | .remnantNumber n => byte4 n
  | .stored n k => byte1 n.val ++ byte1 k.val
  | .found n loc score rotated orders =>
      byte4 n ++ loc.bytes ++ byte2 score ++ yesNo rotated ++ listBytes 1 (fun (k : OrderNo) => byte1 k.val) orders
  | .entries header es =>
      byte1 es.length ++ (match header with | some (n, seq) => byte1 n ++ byte4 seq | .none => []) ++ es.flatMap Entry.bytes
  | .status r => r.bytes
  | .answer kind payload => byte1 kind ++ payload

/-- The frame of a reply: the request's kind and tag, the reason code, and for OK the fields (R179, R190). -/
def Reply.frame (r : Reply) : OfficeFrame :=
  ⟨r.kind, r.tag, 0, byte1 r.code.ctorIdx ++ (match r.code with | .ok => r.body.bytes | _ => [])⟩

/-! ## Notices (R181, R190) -/

/-- The kind code of a notice (R190). -/
def Notice.kind : Notice → Nat
  | .completionPending .. => 0x80
  | .queueEmpty .. => 0x81
  | .gantryState .. => 0x82
  | .markEach .. => 0x83
  | .markBatch .. => 0x83
  | .craneOrder .. => 0x84
  | .craneLost .. => 0x85
  | .craneFound .. => 0x86
  | .stationLost .. => 0x87
  | .stationFound .. => 0x88
  | .remnantCreated .. => 0x89
  | .remnantTableFull .. => 0x8A

def jobByte (j : Option JobNo) : List Byte := optional 1 (fun (j : JobNo) => byte1 j.val) j

/-- The fields of a notice. -/
def Notice.bytes : Notice → List Byte
  | .completionPending j o => byte1 j.val ++ byte1 o.ctorIdx
  | .queueEmpty g => byte1 g.val
  | .gantryState g s held j lastPart cause code stop =>
      byte1 g.val ++ byte1 s.ctorIdx ++ held.bytes ++ jobByte j ++ byte2 lastPart ++ byte1 cause.ctorIdx ++ optional 1 byte1 code
        ++ optional 2 byte2 stop
  | .markEach g j part tag slot order ok required after =>
      byte1 g.val ++ jobByte j ++ byte2 part ++ byte4 tag ++ byte1 slot.val ++ byte2 order ++ byte1 (if ok then 0 else 1) ++ yesNo required
        ++ byte1 after.ctorIdx
  | .markBatch g j phase ok failed unresolved =>
      byte1 g.val ++ jobByte j ++ byte1 phase.ctorIdx ++ byte2 ok ++ byte2 failed ++ byte2 unresolved
  | .craneOrder n c origin s d l endState cause tag =>
      byte1 n.val ++ byte1 c.val ++ byte1 origin.ctorIdx ++ s.bytes ++ d.bytes ++ l.bytes ++ byte1 endState.ctorIdx
        ++ optional 2 OrderCause.bytes cause ++ optional 2 byte2 tag
  | .craneLost c cause age => byte1 c.val ++ byte1 cause.ctorIdx ++ byte2 age
  | .craneFound c r => byte1 c.val ++ r.bytes
  | .stationLost a cause kind => byte1 a ++ optional 1 (fun (c : MissCause) => byte1 c.ctorIdx) cause ++ byte1 kind
  | .stationFound a => byte1 a
  | .remnantCreated n b grade thickness w l origin =>
      byte4 n ++ byte1 b.val ++ byte1 grade ++ byte2 thickness ++ byte2 w ++ byte2 l ++ origin.bytes
  | .remnantTableFull b plate w l cause => byte1 b.val ++ plate.bytes ++ byte2 w ++ byte2 l ++ byte1 cause.ctorIdx

/-- The frame of a notice: its kind, its sequence value in the tag position (R181). -/
def noticeFrame (sequence : Nat) (n : Notice) : OfficeFrame := ⟨n.kind, sequence, 0, n.bytes⟩

/-- The bytes on the office line of the frame being sent (12.1). -/
def OutFrame.bytes : OutFrame → List Byte
  | .reply r => officeBytes r.frame
  | .notice seq n => officeBytes (noticeFrame seq n)

end Sys2Proof.Machine
end

