-- ==== Sys2Proof/Machine/Fit.lean ====
section
/-! DEFINITION. The Remnant Stock Unit's choices: the slot choice, STORE, the remnant fit and its restacking (9.5, 9.6). -/

namespace Sys2Proof.Machine

/-! ## Slot choice and storing (R152, R153) -/

/-- The committed count of a slot, with the slots already chosen in the same plan (R152). -/
def Part.plannedCount (p : Part) (chosen : List SlotNo) (k : SlotNo) : Nat := p.committed k + chosen.count k

/-- A slot is a candidate for a piece (R152). -/
def Part.slotCandidate (p : Part) (w l : Nat) (excluded chosen : List SlotNo) (k : SlotNo) : Bool :=
  (p.slot k).loaded && !excluded.contains k && p.plannedCount chosen k < 4 && (p.slot k).claim.isNone && !p.slotReserved k none
    && (p.slot k).admits w l

/-- The first element with the least key. -/
def leastBy {α : Type} (key : α → Nat) : List α → Option α
  | [] => none
  | a :: l =>
      match leastBy key l with
      | some b => if key b < key a then some b else some a
      | none => some a

/-- The slot choice of R152: the lowest committed count, then the lowest number. -/
def Part.slotChoice (p : Part) (w l : Nat) (excluded chosen : List SlotNo) : Option SlotNo :=
  leastBy (p.plannedCount chosen) (allSlots.filter (p.slotCandidate w l excluded chosen))

/-- The installed crane that holds the rack crane flag (R17, R153). -/
def Part.rackCrane (p : Part) : Option Crane := allCranes.find? (fun c => (p.crane c).installed && (p.crane c).rack)

/-- STORE (R153). -/
def store (p : Part) (tag n : Nat) : Answered :=
  recorded p n fun r =>
    match r.location with
    | .bed b =>
        checked p
          [(r.state == .free, .state), (!(p.bed b).held && !p.remnantInOrders n, .inUse), (p.rackCrane.isSome, .state),
           (p.rsu.digReserve < p.freeRackPlaces, .rackFull)]
          (match p.rackCrane, p.slotChoice r.width r.length [] [] with
           | some c, some k =>
               match p.placeList c [{ crane := c, origin := .stock, source := .bed b, destination := .slot k,
                                      load := .plate ⟨.remnant, n⟩, requestTag := some tag }] with
               | .ok (p', m :: _) => (p', .ok, .stored m k)
               | .ok (_, []) => refuse p .noNumber
               | .error r => refuse p r
           | _, _ => refuse p .rackFull)
    | _ => refuse p .state

/-! ## The remnant fit (R154 to R157) -/

/-- What a REMNANT REQUEST asks for, with the margin added (R154). -/
structure FitRequest where
  grade     : Nat
  thickness : Nat
  width     : Nat
  length    : Nat
  rotate    : Bool
  deep      : Bool
  deriving DecidableEq, Repr

/-- A remnant fits straight or, when allowed, rotated (R156, stages 1 to 3): the rotated flag, none when it does not fit. -/
def FitRequest.fit (q : FitRequest) (w l : Nat) : Option Bool :=
  if q.width ≤ w ∧ q.length ≤ l then some false
  else if q.rotate = true ∧ q.width ≤ l ∧ q.length ≤ w then some true
  else none

/-- The score of a fitting candidate at a depth (R156, stages 4 to 6). -/
def FitRequest.score (q : FitRequest) (w l digPenalty depth : Nat) : Nat :=
  min 4095 ((w * l - q.width * q.length) / 10000 + digPenalty * depth)

/-- The remnants above a remnant in its stack, top first, a number without a record among them (log 52). -/
def aboveIn (stack : List Nat) (n : Nat) : List Nat := (stack.reverse).takeWhile (· != n)

/-- The depth at which a remnant may be a candidate, by its place (R155). -/
def Part.candidateDepth (p : Part) (deep : Bool) (r : Remnant) : Option Nat :=
  match r.location with
  | .bed b => if (p.bed b).held then none else some 0
  | .slot k _ =>
      let depth := (aboveIn (p.slot k).stack r.number).length
      if depth = 0 ∨ deep = true then some depth else none
  | _ => none

/-- A candidate of the request, with its depth (R155). -/
def Part.candidate (p : Part) (q : FitRequest) (r : Remnant) : Option Nat :=
  if r.state = .free ∧ r.grade = q.grade ∧ r.thickness = q.thickness ∧ p.remnantInOrders r.number = false then
    p.candidateDepth q.deep r
  else none

/-- Slots for a list of remnants, chosen in turn, the candidate's own slot excluded (R152, R157); none for a number without a record
(log 52). -/
def Part.planSlots (p : Part) (own : SlotNo) : List SlotNo → List Nat → Option (List SlotNo)
  | _, [] => some []
  | chosen, n :: ns =>
      match p.remnant n with
      | none => none
      | some r =>
          match p.slotChoice r.width r.length [own] chosen with
          | none => none
          | some k => (p.planSlots own (k :: chosen) ns).map (k :: ·)

/-- The restacking of a candidate, one destination for each remnant above it (R157): none when it is not possible with room to
spare, an empty plan at depth 0. -/
def Part.restackPlan (p : Part) (r : Remnant) : Option (List (Nat × SlotNo)) :=
  match r.location with
  | .slot own _ =>
      let above := aboveIn (p.slot own).stack r.number
      let movable := above.all (fun n => (p.remnant n).all (fun m => m.state == .free) && !p.remnantInOrders n)
      if above.isEmpty then some []
      else if movable ∧ above.length + p.rsu.digReserve + p.freePlaces own ≤ p.freeRackPlaces then
        (p.planSlots own [] above).map (fun ks => above.zip ks)
      else none
  | _ => some []

/-- A remnant that fits and counts. -/
structure Fitting where
  remnant : Remnant
  score   : Nat
  rotated : Bool
  plan    : List (Nat × SlotNo)
  deriving DecidableEq, Repr

/-- The judgement of one record (R155 to R157). -/
def Part.fitting (p : Part) (q : FitRequest) (r : Remnant) : Option Fitting :=
  match p.candidate q r, q.fit r.width r.length, p.restackPlan r with
  | some depth, some rotated, some plan => some ⟨r, q.score r.width r.length p.rsu.digPenalty depth, rotated, plan⟩
  | _, _, _ => none

/-- The winner: the lowest score, among equals the oldest (R158). -/
def Part.bestFit (p : Part) (q : FitRequest) : Option Fitting := leastBy (·.score) (p.rsu.remnants.filterMap (p.fitting q))

/-! ## REMNANT REQUEST (R158, R159) -/

/-- The restack orders of a winner, from the top downward (R159). -/
def restackOrders (c : Crane) (own : SlotNo) (reservation : Nat) (plan : List (Nat × SlotNo)) : List Order :=
  plan.map (fun (n, k) =>
    { crane := c, origin := .stock, source := .slot own, destination := .slot k, load := .plate ⟨.remnant, n⟩,
      requestTag := some reservation })

/-- The winner reserved with the request's tag and its restack list (R158). -/
def Part.reserve (p : Part) (n reservation : Nat) (restack : List OrderNo) : Part :=
  p.changeRemnant n (fun r => { r with state := .reserved, reservation := some reservation, restack := restack })

/-- The reply to an answered request (R158). -/
def Fitting.reply (w : Fitting) (orders : List OrderNo) : ReplyBody :=
  .found w.remnant.number w.remnant.location w.score w.rotated orders

/-- The winner reserved, its restack orders placed first when it is buried (R158, R159). -/
def Part.takeWinner (p : Part) (w : Fitting) (reservation : Nat) : Answered :=
  match w.plan, w.remnant.location with
  | [], _ => (p.reserve w.remnant.number reservation [], .ok, w.reply [])
  | plan, .slot own _ =>
      match p.rackCrane with
      | none => refuse p .state
      | some c =>
          match p.placeList c (restackOrders c own reservation plan) with
          | .error r => refuse p r
          | .ok (p', ns) => (p'.reserve w.remnant.number reservation ns, .ok, w.reply ns)
  | _, _ => refuse p .noFit

/-- REMNANT REQUEST (R154 to R159). -/
def remnantRequest (p : Part) (grade thickness w l rotate deep reservation : Nat) : Answered :=
  let m := p.marginFor thickness
  let q : FitRequest := ⟨grade, thickness, w + 2 * m, l + 2 * m, rotate == 1, deep == 1⟩
  checked p
    [(grade ≤ 15 && within 30 1500 thickness && within 100 5000 w && within 100 24000 l && isYesNo rotate && isYesNo deep
        && reservation ≤ 65535, .badField)]
    (match p.bestFit q with
     | none => refuse p .noFit
     | some best => p.takeWinner best reservation)

end Sys2Proof.Machine
end

