-- ==== Sys2Proof/Machine/Tables.lean ====
section
/-! DEFINITION. READ ENTRY and READ STATUS: index lists, entries, clipping, the status reply (R183, R184). -/

namespace Sys2Proof.Machine

/-! ## Index lists and clipping (R183) -/

/-- The indices a read visits, never wrapping; none for a step that is none of +1, −1 (sent as 255) and 0. -/
def indexList (range first count step : Nat) : Option (List Nat) :=
  match step with
  | 0 => some (List.replicate count first)
  | 1 => some (((List.range count).map (first + ·)).filter (· < range))
  | 255 => some ((List.range count).filterMap (fun k => if k ≤ first then some (first - k) else none))
  | _ => none

/-- How many payload bytes an office frame has (12.1). -/
def payloadLimit : Nat := 240

/-- The entry as it is returned in the room left: whole when it fits; a JOB entry whose page list alone exceeds the payload with as
many of its page numbers as fit (R183; log 23). -/
def fitEntry (room : Nat) (e : Entry) : Option Entry :=
  if e.bytes.length ≤ room then some e
  else match e with
    | .job j state on count pages position =>
        if payloadLimit < 2 * pages.length ∧ 6 ≤ room then some (.job j state on count (pages.take ((room - 6) / 2)) position) else none
    | _ => none

/-- The entries that fit a payload, in list order (R183). -/
def clipEntries : Nat → List Entry → List Entry
  | _, [] => []
  | room, e :: es =>
      match fitEntry room e with
      | some e' => e' :: clipEntries (room - e'.bytes.length) es
      | none => clipEntries room es

/-- READ ENTRY of a table with this index range (R183): the checks, the index list, the entries read. -/
def readTable (p : Part) (range first count step : Nat) (header : Option (Nat × Nat)) (entry : Nat → Option Entry) : Answered :=
  checked p [(first < range, .badIndex), (within 1 8 count, .badRequest)]
    (match indexList range first count step with
     | none => refuse p .badField
     | some is => (p, .ok, .entries header (clipEntries (payloadLimit - (if header.isSome then 7 else 2)) (is.filterMap entry))))

/-- The entry of a numbered record. -/
def entryAt {k : Nat} (f : Fin k → Entry) (i : Nat) : Option Entry := (fin? k i).map f

/-! ## The entries of each table -/

def Part.bedEntry (p : Part) (b : Bed) : Entry := .bed b (p.bed b)
def Part.gantryEntry (p : Part) (g : Gantry) : Entry :=
  .gantry g (if (p.params g).loaded then some (p.params g) else none) (p.engine g).accumulator (p.engine g).backlog
def Part.craneEntry (p : Part) (c : Crane) : Entry := .crane c (p.crane c)
def Part.slotEntry (p : Part) (k : SlotNo) : Entry := .slot k (p.slot k) (p.committed k)
def Part.passEntry (p : Part) (s : Station) : Entry := .pass s (p.pass s)
def Part.bandEntry (p : Part) (i : Fin 8) : Entry := .band i (p.band i)
def Part.controllerEntry (p : Part) (_ : Fin 1) : Entry :=
  .controller p.flp.answerWindow p.hmp.hallLength p.hmp.hallWidth p.rsu.digPenalty p.rsu.digReserve p.rsu.minSize
def Part.presenceEntry (p : Part) (i : Fin 16) : Entry := .presence i (look p.hmp.presences i)
def Part.registrationEntry (p : Part) (g : Gantry) : Entry := .registration g (p.registration g)
def Part.jobEntry (p : Part) (j : JobNo) : Entry :=
  let e := p.job j
  .job j e.state e.gantry e.pages.length e.pages (p.jobPosition j)
def Part.markEntry (p : Part) (g : Gantry) : Entry :=
  let m := p.marks g
  .mark g m.slots.toList m.phase m.sendList m.unresolved m.underflow m.mode
def Part.orderEntry (p : Part) (n : OrderNo) : Entry :=
  .order n (p.order n) ((p.order n).bind (fun o => placeIn (p.orderQueue o.crane) n))
def Part.remnantEntry (p : Part) (i : Nat) : Option Entry := (p.rsu.remnants[i]?).map (.remnant i)
def Part.stationEntry (p : Part) (s : Station) : Entry := .station s (p.station s) (p.eligible s)

/-! ## READ STATUS (R184) -/

def Part.gantryStatus (p : Part) (g : Gantry) : GantryStatus :=
  let e := p.engine g
  ⟨e.state, p.reportedHeld g, (p.queue g).length, e.backlog, (p.marks g).underflow⟩

/-- The status of the whole part at one moment (R184). -/
def Part.status (p : Part) : StatusReport :=
  { gantries := allGantries.map p.gantryStatus, cranes := allCranes.map (fun c => (p.crane c).state), freePages := p.jst.pool.length,
    freeJobs := (allJobs.filter (fun j => (p.job j).isFree)).length, completionHead := p.jst.completions.head?,
    freeRackPlaces := p.freeRackPlaces, noticeLost := p.ofp.noticeLost }

end Sys2Proof.Machine
end

