-- ==== Sys2Proof/Machine/Office.lean ====
section
/-! DEFINITION. The Office Port: receiving, taking a request, replies, the transmitter, the resets of the part (chapter 11). -/

namespace Sys2Proof.Machine

/-! ## The transmitter (R180) -/

/-- A free transmitter begins the reply that entered first, else the oldest notice; the frame leaves its place then (R180). A
passthrough is held until the transmission of its kept reply begins (R174). -/
def Part.transmit (p : Part) : Part :=
  match p.ofp.sending, p.ofp.replies, p.ofp.notices with
  | none, r :: rest, _ =>
      let p := { p with ofp := { p.ofp with replies := rest, sending := some (.reply r) } }
      if r.kept then { p with flp := { p.flp with passHeld := none } } else p
  | none, [], (seq, n) :: rest => { p with ofp := { p.ofp with notices := rest, sending := some (.notice seq n) } }
  | _, _, _ => p

/-- The frame being sent ends (R180). -/
def Part.transmitDone (p : Part) : Part := { p with ofp := { p.ofp with sending := none } }

/-! ## Receiving (R176, R191) -/

/-- A good frame takes the waiting place when it is empty, and is dropped otherwise (R176). -/
def Part.goodFrame (p : Part) (f : OfficeFrame) : Part :=
  match p.ofp.waiting with
  | none => { p with ofp := { p.ofp with waiting := some (decodeOffice f) } }
  | some _ => p

/-- One byte at the receive assembler (R176). -/
def Part.receiveByte (p : Part) (b : Byte) : Part :=
  let (a, out) := feed p.ofp.assembler b
  let p := { p with ofp := { p.ofp with assembler := a } }
  match out with
  | .frame f => p.goodFrame f
  | _ => p

/-- A run of bytes at the receive assembler (R176). -/
def Part.receive (p : Part) (bs : List Byte) : Part := bs.foldl Part.receiveByte p

/-- More than 1 ms has passed between two bytes of a frame: it is dropped, and the assembler hunts again (R176). -/
def Part.byteGap (p : Part) : Part :=
  match p.ofp.assembler with
  | .collecting _ => { p with ofp := { p.ofp with assembler := .hunting } }
  | .hunting => p

/-! ## Requests and events (R177, R179) -/

/-- How many ordinary places the reply queue has (R180). -/
def replyCapacity : Nat := 4

/-- A reply may still enter an ordinary place (R177). -/
def OfficePort.hasReplyPlace (o : OfficePort) : Bool := (o.replies.filter (fun r => !r.kept)).length < replyCapacity

/-- The reply to a request as its owner answers it (R179). -/
def Part.reply (p : Part) (kind tag : Nat) (code : Reason) (body : ReplyBody) : Part :=
  { p with ofp := { p.ofp with replies := p.ofp.replies ++ [{ kind := kind, tag := tag, code := code, body := body }] } }

/-- What may keep a request from being taken (R176, R177, R187; log 3, log 4). -/
inductive Admission where
  | refused | waits | taken
  deriving DecidableEq, Repr

/-- Nothing is taken while the reset input is held; a frame that finds another in the waiting place is dropped; one that finds no
ordinary reply place free waits (R176, R177, R187). -/
def OfficePort.admission (o : OfficePort) (c : Instr) : Admission :=
  if o.resetHeld || o.waiting.any (· != c) then .refused else if o.hasReplyPlace then .taken else .waits

/-- A request frame at the waiting place (R176, R177): taken, carried out whole, answered; or waiting; or dropped. -/
def Part.request? (p : Part) (c : Instr) (body : Part → Part) : Part :=
  match p.ofp.admission c with
  | .refused => p
  | .waits => { p with ofp := { p.ofp with waiting := some c } }
  | .taken => (body { p with ofp := { p.ofp with waiting := none } }).transmit

/-- A request answered by its owner: the hand-offs it causes are run before the reply enters (R177, R179). -/
def Part.serve (p : Part) (c : Instr) (kind tag : Nat) (owner : Part → Answered) : Part :=
  p.request? c (fun p =>
    let (p, code, body) := owner p
    p.settled.reply kind tag code body)

/-- Something happens to the part, with all that it causes; nothing while the reset input is held (R187; log 4). -/
def Part.happens (p : Part) (f : Part → Part) : Part := if p.ofp.resetHeld then p else (f p).settled.transmit

/-! ## Resets (R186, R187) -/

/-- A cold reset, by the reset input, which is then held, or by power-up (R187). -/
def coldReset (byInput : Bool) : Part := { Part.cold with ofp := { Part.cold.ofp with resetHeld := byInput } }

/-- The reset input is released: every block at its cold reset values (R187). -/
def Part.releaseReset (p : Part) : Part := if p.ofp.resetHeld then Part.cold else p

end Sys2Proof.Machine
end

