-- ==== Sys2Proof/Machine/Commands.lean ====
section
/-! DEFINITION. The two shapes of a command: a request frame that is taken and answered, and an event. The queue is left as it is. -/

namespace Sys2Proof.Machine

/-- A request of the supervisor, answered by its owner (R177, R179). -/
def State.serve (s : State) (c : Instr) (kind tag : Nat) (owner : Part → Answered) : Host.Outcome State Fault Refusal :=
  .next { s with part := s.part.serve c kind tag owner }

/-- An event of the lines, of the clock or of the reset input. -/
def State.happens (s : State) (f : Part → Part) : Host.Outcome State Fault Refusal := .next { s with part := s.part.happens f }

end Sys2Proof.Machine
end

