-- ==== Sys2Proof/Machine/FloorCommands.lean ====
section
/-! DEFINITION. The floor line and the time base. -/

namespace Sys2Proof.Machine

/-- The Floor Port grants the line (R163, R167 to R169, R174). -/
def execFloorGrant (s : State) : Host.Outcome State Fault Refusal := s.happens Part.floorGrant

/-- The line has been silent for one answer window after a miss (R163). -/
def execMissSilenceEnd (s : State) : Host.Outcome State Fault Refusal := s.happens Part.silenceEnd

/-- The answer window of the transaction in flight expires (R163, R164). -/
def execAnswerWindowExpiry (begun : Bool) (s : State) : Host.Outcome State Fault Refusal := s.happens (fun p => p.windowExpiry begun)

/-- An answer that fails a check (R163, R192). -/
def execBadAnswer (bytes : List Byte) (s : State) : Host.Outcome State Fault Refusal := s.happens (fun p => p.badAnswer bytes)

/-- A crane's POSITION (R170, R193). -/
def execCranePollAnswer (address : Nat) (x y : Int) (hookLow loaded : Bool) (event : Option (OrderEventKind × Nat)) (s : State) :
    Host.Outcome State Fault Refusal :=
  s.happens (fun p => p.answered ⟨address, 0x83, positionBytes x y hookLow loaded event⟩ (.position x y hookLow loaded event))

/-- A gantry's event list (R171, R194). -/
def execGantryPollAnswer (address : Nat) (events : List GantryEvent) (s : State) : Host.Outcome State Fault Refusal :=
  s.happens (fun p => p.answered ⟨address, 0x84, eventBytes events⟩ (.events events))

/-- ACK to a command frame (R172). -/
def execAnswerAck (address : Nat) (s : State) : Host.Outcome State Fault Refusal :=
  s.happens (fun p => p.answered ⟨address, 0x81, []⟩ .ack)

/-- REFUSE to a command frame (R172). -/
def execAnswerRefuse (address code : Nat) (s : State) : Host.Outcome State Fault Refusal :=
  s.happens (fun p => p.answered ⟨address, 0x82, byte1 code⟩ (.refuse code))

/-- A station's answer to a passthrough frame (R174, R192). -/
def execPassthroughAnswer (address kind : Nat) (payload : List Byte) (s : State) : Host.Outcome State Fault Refusal :=
  s.happens (fun p => p.answered ⟨address, kind, payload⟩ (parseAnswer kind payload))

/-- The report age of a crane exceeds half its timeout (R27). -/
def execDuePollRaise (crane : Fin 2) (s : State) : Host.Outcome State Fault Refusal := s.happens (fun p => p.raiseDuePoll crane)

/-- The report age of a crane reaches its timeout (R28). -/
def execPositionTimeout (crane : Fin 2) (s : State) : Host.Outcome State Fault Refusal := s.happens (fun p => p.positionTimeout crane)

/-- One millisecond of the time base (R24). -/
def execReportAgeTick (s : State) : Host.Outcome State Fault Refusal := s.happens Part.tick

end Sys2Proof.Machine
end

