-- ==== Sys2Proof/Machine/GantryCommands.lean ====
section
/-! DEFINITION. The requests of the Burn Dispatcher and the Mark Sequencer. -/

namespace Sys2Proof.Machine

/-- GANTRY ENABLE (R69). -/
def execGantryEnable (tag : Nat) (gantry : Nat) (s : State) : Host.Outcome State Fault Refusal :=
  s.serve (.gantryEnable tag gantry) kGantryEnable tag (fun p => gantryEnable p gantry)

/-- GANTRY DISABLE (R72). -/
def execGantryDisable (tag : Nat) (gantry : Nat) (s : State) : Host.Outcome State Fault Refusal :=
  s.serve (.gantryDisable tag gantry) kGantryDisable tag (fun p => gantryDisable p gantry)

/-- GANTRY HOLD (R71). -/
def execGantryHold (tag : Nat) (gantry : Nat) (s : State) : Host.Outcome State Fault Refusal :=
  s.serve (.gantryHold tag gantry) kGantryHold tag (fun p => gantryHold p gantry)

/-- GANTRY RELEASE (R71). -/
def execGantryRelease (tag : Nat) (gantry : Nat) (s : State) : Host.Outcome State Fault Refusal :=
  s.serve (.gantryRelease tag gantry) kGantryRelease tag (fun p => gantryRelease p gantry)

/-- PART DECISION (R115, R116). -/
def execPartDecision (tag : Nat) (gantry : Nat) (part : Nat) (decision : Nat) (s : State) : Host.Outcome State Fault Refusal :=
  s.serve (.partDecision tag gantry part decision) kPartDecision tag (fun p => partDecision p gantry part decision)

end Sys2Proof.Machine
end

