-- ==== Sys2Proof/Machine/HallCommands.lean ====
section
/-! DEFINITION. The requests on beds and crane orders. -/

namespace Sys2Proof.Machine

/-- BED DECLARE (R10). -/
def execBedDeclare (tag : Nat) (bed : Nat) (plate : RawTag) (condition : Nat) (s : State) : Host.Outcome State Fault Refusal :=
  s.serve (.bedDeclare tag bed plate condition) kBedDeclare tag (fun p => bedDeclare p bed plate condition)

/-- BED CLEAR (R11). -/
def execBedClear (tag : Nat) (bed : Nat) (s : State) : Host.Outcome State Fault Refusal :=
  s.serve (.bedClear tag bed) kBedClear tag (fun p => bedClearRequest p bed)

/-- CRANE ORDER (R123, R124). -/
def execCraneOrder (tag : Nat) (crane : Nat) (source : RawPlace) (destination : RawPlace) (load : RawTag) (s : State) : Host.Outcome State Fault Refusal :=
  s.serve (.craneOrder tag crane source destination load) kCraneOrder tag (fun p => craneOrder p tag crane source destination load)

/-- CRANE ORDER CANCEL (R136). -/
def execCraneOrderCancel (tag : Nat) (order : Nat) (s : State) : Host.Outcome State Fault Refusal :=
  s.serve (.craneOrderCancel tag order) kCraneOrderCancel tag (fun p => craneOrderCancel p order)

end Sys2Proof.Machine
end

