-- ==== Sys2Proof/Machine/JobCommands.lean ====
section
/-! DEFINITION. The requests of the Job Store. -/

namespace Sys2Proof.Machine

/-- JOB OPEN (R38). -/
def execJobOpen (tag : Nat) (pages : Nat) (s : State) : Host.Outcome State Fault Refusal :=
  s.serve (.jobOpen tag pages) kJobOpen tag (fun p => jobOpen p pages)

/-- JOB WRITE (R39 to R41, R195). -/
def execJobWrite (tag : Nat) (job : Nat) (offset : Nat) (records : List (List Byte)) (s : State) : Host.Outcome State Fault Refusal :=
  s.serve (.jobWrite tag job offset records) kJobWrite tag (fun p => jobWrite p job offset records)

/-- JOB READ (R42). -/
def execJobRead (tag : Nat) (job : Nat) (offset : Nat) (count : Nat) (s : State) : Host.Outcome State Fault Refusal :=
  s.serve (.jobRead tag job offset count) kJobRead tag (fun p => jobRead p job offset count)

/-- JOB ENQUEUE (R43, R74). -/
def execJobEnqueue (tag : Nat) (job : Nat) (gantry : Nat) (s : State) : Host.Outcome State Fault Refusal :=
  s.serve (.jobEnqueue tag job gantry) kJobEnqueue tag (fun p => jobEnqueue p job gantry)

/-- JOB RELEASE (R45). -/
def execJobRelease (tag : Nat) (job : Nat) (s : State) : Host.Outcome State Fault Refusal :=
  s.serve (.jobRelease tag job) kJobRelease tag (fun p => jobRelease p job)

/-- COMPLETION ACK (R50). -/
def execCompletionAck (tag : Nat) (s : State) : Host.Outcome State Fault Refusal :=
  s.serve (.completionAck tag) kCompletionAck tag (fun p => completionAck p)

/-- COMPLETION ACK AND RELEASE (R51). -/
def execCompletionAckAndRelease (tag : Nat) (s : State) : Host.Outcome State Fault Refusal :=
  s.serve (.completionAckAndRelease tag) kCompletionAckAndRelease tag (fun p => completionAckAndRelease p)

end Sys2Proof.Machine
end

