-- ==== Sys2Proof/Machine/OfficeCommands.lean ====
section
/-! DEFINITION. The Office Port's own requests, the office line, the resets. -/

namespace Sys2Proof.Machine

/-- READ STATUS (R184). -/
def execReadStatus (tag : Nat) (s : State) : Host.Outcome State Fault Refusal :=
  s.serve (.readStatus tag) kReadStatus tag (fun p => (p, .ok, .status p.status))

/-- CLEAR FLAGS (R185). -/
def execClearFlags (tag : Nat) (s : State) : Host.Outcome State Fault Refusal :=
  s.serve (.clearFlags tag) kClearFlags tag (fun p => accept p.clearFlags)

/-- CONTROLLER RESET: the warm reset (R186). -/
def execControllerReset (tag : Nat) (s : State) : Host.Outcome State Fault Refusal :=
  s.serve (.controllerReset tag) kControllerReset tag (fun p => accept p.warmReset)

/-- PASSTHROUGH (R174, R191): refused at once with a reply, or accepted, and answered when it ends. -/
def execPassthrough (tag destination kind : Nat) (payload : List Byte) (s : State) : Host.Outcome State Fault Refusal :=
  .next { s with part := s.part.request? (.passthrough tag destination kind payload) (fun p =>
    match passRequest p tag destination kind payload with
    | (p, some code) => p.settled.reply kind tag code .none
    | (p, none) => p.settled) }

/-- The code of a request the Office Port itself refuses (R178). -/
def officeFaultReason : OfficeFault → Reason
  | .badRequest => .badRequest
  | .badTable => .badTable

/-- A request the Office Port itself refuses (R178, R191). -/
def execUnknownRequest (tag kind : Nat) (fault : OfficeFault) (s : State) : Host.Outcome State Fault Refusal :=
  s.serve (.unknownRequest tag kind fault) kind tag (fun p => refuse p (officeFaultReason fault))

/-- Bytes arrive on the office line (R176, R177, R191). -/
def execOfficeFrameReceived (bytes : List Byte) (s : State) : Host.Outcome State Fault Refusal := s.happens (fun p => p.receive bytes)

/-- Bytes, then a gap of more than 1 ms, then the byte that ended it (R176). -/
def execOfficeByteGap (before : List Byte) (next : Byte) (s : State) : Host.Outcome State Fault Refusal :=
  s.happens (fun p => ((p.receive before).byteGap).receiveByte next)

/-- The frame being sent to the supervisor ends (R180). -/
def execOfficeTransmitDone (s : State) : Host.Outcome State Fault Refusal := s.happens Part.transmitDone

/-- A frame whose length byte is out of range, on the office line (R191): the bytes drop the frame and are hunted through. -/
def execOfficeLengthDrop (bytes : List Byte) (s : State) : Host.Outcome State Fault Refusal := s.happens (fun p => p.receive bytes)

/-- Power-up, or the reset input taken (R187). -/
def execColdReset (byInput : Bool) (s : State) : Host.Outcome State Fault Refusal := .next { s with part := coldReset byInput }

/-- The reset input released (R187). -/
def execResetInputRelease (s : State) : Host.Outcome State Fault Refusal := .next { s with part := s.part.releaseReset }

end Sys2Proof.Machine
end

