-- ==== Sys2Proof/Machine/StockCommands.lean ====
section
/-! DEFINITION. The requests of the Remnant Stock Unit. -/

namespace Sys2Proof.Machine

/-- REMNANT ENTER (R148). -/
def execRemnantEnter (tag : Nat) (grade : Nat) (thickness : Nat) (width : Nat) (length : Nat) (heatLength : Nat) (heatChars : List Byte) (location : RawPlace) (s : State) : Host.Outcome State Fault Refusal :=
  s.serve (.remnantEnter tag grade thickness width length heatLength heatChars location) kRemnantEnter tag (fun p => remnantEnter p grade thickness width length heatLength heatChars location)

/-- REMNANT REMOVE (R149). -/
def execRemnantRemove (tag : Nat) (number : Nat) (s : State) : Host.Outcome State Fault Refusal :=
  s.serve (.remnantRemove tag number) kRemnantRemove tag (fun p => remnantRemove p number)

/-- REMNANT RELOCATE (R150). -/
def execRemnantRelocate (tag : Nat) (number : Nat) (location : RawPlace) (s : State) : Host.Outcome State Fault Refusal :=
  s.serve (.remnantRelocate tag number location) kRemnantRelocate tag (fun p => remnantRelocate p number location)

/-- REMNANT UNRESERVE (R151). -/
def execRemnantUnreserve (tag : Nat) (number : Nat) (s : State) : Host.Outcome State Fault Refusal :=
  s.serve (.remnantUnreserve tag number) kRemnantUnreserve tag (fun p => remnantUnreserve p number)

/-- STORE (R153). -/
def execStore (tag : Nat) (number : Nat) (s : State) : Host.Outcome State Fault Refusal :=
  s.serve (.store tag number) kStore tag (fun p => store p tag number)

/-- REMNANT REQUEST (R154 to R159). -/
def execRemnantRequest (tag : Nat) (grade : Nat) (thickness : Nat) (w : Nat) (l : Nat) (rotate : Nat) (deep : Nat) (reservation : Nat) (s : State) : Host.Outcome State Fault Refusal :=
  s.serve (.remnantRequest tag grade thickness w l rotate deep reservation) kRemnantRequest tag (fun p => remnantRequest p grade thickness w l rotate deep reservation)

end Sys2Proof.Machine
end

