-- ==== Sys2Proof/Machine/TableCommands.lean ====
section
/-! DEFINITION. LOAD ENTRY and READ ENTRY, one command for each table. -/

namespace Sys2Proof.Machine

/-- LOAD ENTRY of table BED (R2, R3). -/
def execLoadEntryBed (tag : Nat) (index : Nat) (loaded : Nat) (xLo : Int) (xHi : Int) (yLo : Int) (yHi : Int) (ox : Int) (oy : Int) (s : State) : Host.Outcome State Fault Refusal :=
  s.serve (.loadEntryBed tag index loaded xLo xHi yLo yHi ox oy) kLoadEntry tag (fun p => loadBed p index loaded xLo xHi yLo yHi ox oy)

/-- LOAD ENTRY of table GANTRY (R68). -/
def execLoadEntryGantry (tag : Nat) (index : Nat) (loaded : Nat) (reach : Nat) (xMin : Int) (xMax : Int) (yMin : Int) (yMax : Int) (period : Nat) (retryLimit : Nat) (autoRelease : Nat) (mode : Nat) (depth : Nat) (s : State) : Host.Outcome State Fault Refusal :=
  s.serve (.loadEntryGantry tag index loaded reach xMin xMax yMin yMax period retryLimit autoRelease mode depth) kLoadEntry tag (fun p => loadGantry p index loaded reach ⟨xMin, xMax, yMin, yMax⟩ period retryLimit autoRelease mode depth)

/-- LOAD ENTRY of table CRANE (R18, R19). -/
def execLoadEntryCrane (tag : Nat) (index : Nat) (installed : Nat) (margin : Nat) (timeout : Nat) (rack : Nat) (s : State) : Host.Outcome State Fault Refusal :=
  s.serve (.loadEntryCrane tag index installed margin timeout rack) kLoadEntry tag (fun p => loadCrane p index installed margin timeout rack)

/-- LOAD ENTRY of table SLOT (R141). -/
def execLoadEntrySlot (tag : Nat) (index : Nat) (loaded : Nat) (x : Int) (y : Int) (maxWidth : Nat) (maxLength : Nat) (s : State) : Host.Outcome State Fault Refusal :=
  s.serve (.loadEntrySlot tag index loaded x y maxWidth maxLength) kLoadEntry tag (fun p => loadSlot p index loaded x y maxWidth maxLength)

/-- LOAD ENTRY of table PASS (R173). -/
def execLoadEntryPass (tag : Nat) (index : Nat) (diagnostic : Nat) (parameter : Nat) (motion : Nat) (io : Nat) (s : State) : Host.Outcome State Fault Refusal :=
  s.serve (.loadEntryPass tag index diagnostic parameter motion io) kLoadEntry tag (fun p => loadPass p index diagnostic parameter motion io)

/-- LOAD ENTRY of table BAND (R14). -/
def execLoadEntryBand (tag : Nat) (index : Nat) (loaded : Nat) (bound : Nat) (margin : Nat) (s : State) : Host.Outcome State Fault Refusal :=
  s.serve (.loadEntryBand tag index loaded bound margin) kLoadEntry tag (fun p => loadBand p index loaded bound margin)

/-- LOAD ENTRY of table CONTROLLER (R12). -/
def execLoadEntryController (tag : Nat) (index : Nat) (window : Nat) (hallLength : Int) (hallWidth : Int) (digPenalty : Nat) (digReserve : Nat) (minimumSize : Nat) (s : State) : Host.Outcome State Fault Refusal :=
  s.serve (.loadEntryController tag index window hallLength hallWidth digPenalty digReserve minimumSize) kLoadEntry tag (fun p => loadController p index window hallLength hallWidth digPenalty digReserve minimumSize)

/-- READ ENTRY of table BED (R1, R183). -/
def execReadEntryBed (tag : Nat) (first : Nat) (count : Nat) (step : Nat) (s : State) : Host.Outcome State Fault Refusal :=
  s.serve (.readEntryBed tag first count step) kReadEntry tag (fun p => readTable p 8 first count step none (entryAt p.bedEntry))

/-- READ ENTRY of table GANTRY (R68, R97, R183). -/
def execReadEntryGantry (tag : Nat) (first : Nat) (count : Nat) (step : Nat) (s : State) : Host.Outcome State Fault Refusal :=
  s.serve (.readEntryGantry tag first count step) kReadEntry tag (fun p => readTable p 4 first count step none (entryAt p.gantryEntry))

/-- READ ENTRY of table CRANE (R17, R183). -/
def execReadEntryCrane (tag : Nat) (first : Nat) (count : Nat) (step : Nat) (s : State) : Host.Outcome State Fault Refusal :=
  s.serve (.readEntryCrane tag first count step) kReadEntry tag (fun p => readTable p 2 first count step none (entryAt p.craneEntry))

/-- READ ENTRY of table SLOT (R140, R183). -/
def execReadEntrySlot (tag : Nat) (first : Nat) (count : Nat) (step : Nat) (s : State) : Host.Outcome State Fault Refusal :=
  s.serve (.readEntrySlot tag first count step) kReadEntry tag (fun p => readTable p 24 first count step none (entryAt p.slotEntry))

/-- READ ENTRY of table PASS (R173, R183). -/
def execReadEntryPass (tag : Nat) (first : Nat) (count : Nat) (step : Nat) (s : State) : Host.Outcome State Fault Refusal :=
  s.serve (.readEntryPass tag first count step) kReadEntry tag (fun p => readTable p 6 first count step none (entryAt p.passEntry))

/-- READ ENTRY of table BAND (R14, R183). -/
def execReadEntryBand (tag : Nat) (first : Nat) (count : Nat) (step : Nat) (s : State) : Host.Outcome State Fault Refusal :=
  s.serve (.readEntryBand tag first count step) kReadEntry tag (fun p => readTable p 8 first count step none (entryAt p.bandEntry))

/-- READ ENTRY of table CONTROLLER (R12, R183). -/
def execReadEntryController (tag : Nat) (first : Nat) (count : Nat) (step : Nat) (s : State) : Host.Outcome State Fault Refusal :=
  s.serve (.readEntryController tag first count step) kReadEntry tag (fun p => readTable p 1 first count step none (entryAt p.controllerEntry))

/-- READ ENTRY of table PRESENCE (R20, R183). -/
def execReadEntryPresence (tag : Nat) (first : Nat) (count : Nat) (step : Nat) (s : State) : Host.Outcome State Fault Refusal :=
  s.serve (.readEntryPresence tag first count step) kReadEntry tag (fun p => readTable p 16 first count step none (entryAt p.presenceEntry))

/-- READ ENTRY of table REGISTRATION (R54, R183). -/
def execReadEntryRegistration (tag : Nat) (first : Nat) (count : Nat) (step : Nat) (s : State) : Host.Outcome State Fault Refusal :=
  s.serve (.readEntryRegistration tag first count step) kReadEntry tag (fun p => readTable p 4 first count step none (entryAt p.registrationEntry))

/-- READ ENTRY of table JOB (R36, R183). -/
def execReadEntryJob (tag : Nat) (first : Nat) (count : Nat) (step : Nat) (s : State) : Host.Outcome State Fault Refusal :=
  s.serve (.readEntryJob tag first count step) kReadEntry tag (fun p => readTable p 64 first count step none (entryAt p.jobEntry))

/-- READ ENTRY of table MARK (R107, R183). -/
def execReadEntryMark (tag : Nat) (first : Nat) (count : Nat) (step : Nat) (s : State) : Host.Outcome State Fault Refusal :=
  s.serve (.readEntryMark tag first count step) kReadEntry tag (fun p => readTable p 4 first count step none (entryAt p.markEntry))

/-- READ ENTRY of table ORDER (R121, R183). -/
def execReadEntryOrder (tag : Nat) (first : Nat) (count : Nat) (step : Nat) (s : State) : Host.Outcome State Fault Refusal :=
  s.serve (.readEntryOrder tag first count step) kReadEntry tag (fun p => readTable p 32 first count step none (entryAt p.orderEntry))

/-- READ ENTRY of table REMNANT (R139, R183). -/
def execReadEntryRemnant (tag : Nat) (first : Nat) (count : Nat) (step : Nat) (s : State) : Host.Outcome State Fault Refusal :=
  s.serve (.readEntryRemnant tag first count step) kReadEntry tag (fun p => readTable p 128 first count step (some (p.rsu.remnants.length, p.rsu.sequence)) p.remnantEntry)

/-- READ ENTRY of table STATION (R162, R183). -/
def execReadEntryStation (tag : Nat) (first : Nat) (count : Nat) (step : Nat) (s : State) : Host.Outcome State Fault Refusal :=
  s.serve (.readEntryStation tag first count step) kReadEntry tag (fun p => readTable p 6 first count step none (entryAt p.stationEntry))

end Sys2Proof.Machine
end

