-- ==== Sys2Proof/Machine/Dispatch.lean ====
section
/-! DEFINITION. One arm for each command: a direct call of its meaning. -/

namespace Sys2Proof.Machine

def exec (i : Instr) (s : State) : Host.Outcome State Fault Refusal :=
  match i with
  | .jobOpen tag pages => Sys2Proof.Machine.execJobOpen tag pages s
  | .jobWrite tag job offset records => Sys2Proof.Machine.execJobWrite tag job offset records s
  | .jobRead tag job offset count => Sys2Proof.Machine.execJobRead tag job offset count s
  | .jobEnqueue tag job gantry => Sys2Proof.Machine.execJobEnqueue tag job gantry s
  | .jobRelease tag job => Sys2Proof.Machine.execJobRelease tag job s
  | .completionAck tag => Sys2Proof.Machine.execCompletionAck tag s
  | .completionAckAndRelease tag => Sys2Proof.Machine.execCompletionAckAndRelease tag s
  | .gantryEnable tag gantry => Sys2Proof.Machine.execGantryEnable tag gantry s
  | .gantryDisable tag gantry => Sys2Proof.Machine.execGantryDisable tag gantry s
  | .gantryHold tag gantry => Sys2Proof.Machine.execGantryHold tag gantry s
  | .gantryRelease tag gantry => Sys2Proof.Machine.execGantryRelease tag gantry s
  | .partDecision tag gantry part decision => Sys2Proof.Machine.execPartDecision tag gantry part decision s
  | .bedDeclare tag bed plate condition => Sys2Proof.Machine.execBedDeclare tag bed plate condition s
  | .bedClear tag bed => Sys2Proof.Machine.execBedClear tag bed s
  | .craneOrder tag crane source destination load => Sys2Proof.Machine.execCraneOrder tag crane source destination load s
  | .craneOrderCancel tag order => Sys2Proof.Machine.execCraneOrderCancel tag order s
  | .remnantEnter tag grade thickness width length heatLength heatChars location => Sys2Proof.Machine.execRemnantEnter tag grade thickness width length heatLength heatChars location s
  | .remnantRemove tag number => Sys2Proof.Machine.execRemnantRemove tag number s
  | .remnantRelocate tag number location => Sys2Proof.Machine.execRemnantRelocate tag number location s
  | .remnantUnreserve tag number => Sys2Proof.Machine.execRemnantUnreserve tag number s
  | .store tag number => Sys2Proof.Machine.execStore tag number s
  | .remnantRequest tag grade thickness w l rotate deep reservation => Sys2Proof.Machine.execRemnantRequest tag grade thickness w l rotate deep reservation s
  | .loadEntryBed tag index loaded xLo xHi yLo yHi ox oy => Sys2Proof.Machine.execLoadEntryBed tag index loaded xLo xHi yLo yHi ox oy s
  | .loadEntryGantry tag index loaded reach xMin xMax yMin yMax period retryLimit autoRelease mode depth => Sys2Proof.Machine.execLoadEntryGantry tag index loaded reach xMin xMax yMin yMax period retryLimit autoRelease mode depth s
  | .loadEntryCrane tag index installed margin timeout rack => Sys2Proof.Machine.execLoadEntryCrane tag index installed margin timeout rack s
  | .loadEntrySlot tag index loaded x y maxWidth maxLength => Sys2Proof.Machine.execLoadEntrySlot tag index loaded x y maxWidth maxLength s
  | .loadEntryPass tag index diagnostic parameter motion io => Sys2Proof.Machine.execLoadEntryPass tag index diagnostic parameter motion io s
  | .loadEntryBand tag index loaded bound margin => Sys2Proof.Machine.execLoadEntryBand tag index loaded bound margin s
  | .loadEntryController tag index window hallLength hallWidth digPenalty digReserve minimumSize => Sys2Proof.Machine.execLoadEntryController tag index window hallLength hallWidth digPenalty digReserve minimumSize s
  | .readEntryBed tag first count step => Sys2Proof.Machine.execReadEntryBed tag first count step s
  | .readEntryGantry tag first count step => Sys2Proof.Machine.execReadEntryGantry tag first count step s
  | .readEntryCrane tag first count step => Sys2Proof.Machine.execReadEntryCrane tag first count step s
  | .readEntrySlot tag first count step => Sys2Proof.Machine.execReadEntrySlot tag first count step s
  | .readEntryPass tag first count step => Sys2Proof.Machine.execReadEntryPass tag first count step s
  | .readEntryBand tag first count step => Sys2Proof.Machine.execReadEntryBand tag first count step s
  | .readEntryController tag first count step => Sys2Proof.Machine.execReadEntryController tag first count step s
  | .readEntryPresence tag first count step => Sys2Proof.Machine.execReadEntryPresence tag first count step s
  | .readEntryRegistration tag first count step => Sys2Proof.Machine.execReadEntryRegistration tag first count step s
  | .readEntryJob tag first count step => Sys2Proof.Machine.execReadEntryJob tag first count step s
  | .readEntryMark tag first count step => Sys2Proof.Machine.execReadEntryMark tag first count step s
  | .readEntryOrder tag first count step => Sys2Proof.Machine.execReadEntryOrder tag first count step s
  | .readEntryRemnant tag first count step => Sys2Proof.Machine.execReadEntryRemnant tag first count step s
  | .readEntryStation tag first count step => Sys2Proof.Machine.execReadEntryStation tag first count step s
  | .readStatus tag => Sys2Proof.Machine.execReadStatus tag s
  | .clearFlags tag => Sys2Proof.Machine.execClearFlags tag s
  | .controllerReset tag => Sys2Proof.Machine.execControllerReset tag s
  | .passthrough tag destination kind payload => Sys2Proof.Machine.execPassthrough tag destination kind payload s
  | .unknownRequest tag kind fault => Sys2Proof.Machine.execUnknownRequest tag kind fault s
  | .officeFrameReceived bytes => Sys2Proof.Machine.execOfficeFrameReceived bytes s
  | .officeByteGap before next => Sys2Proof.Machine.execOfficeByteGap before next s
  | .officeTransmitDone => Sys2Proof.Machine.execOfficeTransmitDone s
  | .coldReset byInput => Sys2Proof.Machine.execColdReset byInput s
  | .floorGrant => Sys2Proof.Machine.execFloorGrant s
  | .missSilenceEnd => Sys2Proof.Machine.execMissSilenceEnd s
  | .answerWindowExpiry begun => Sys2Proof.Machine.execAnswerWindowExpiry begun s
  | .badAnswer bytes => Sys2Proof.Machine.execBadAnswer bytes s
  | .cranePollAnswer address x y hookLow loaded event => Sys2Proof.Machine.execCranePollAnswer address x y hookLow loaded event s
  | .gantryPollAnswer address events => Sys2Proof.Machine.execGantryPollAnswer address events s
  | .answerAck address => Sys2Proof.Machine.execAnswerAck address s
  | .answerRefuse address code => Sys2Proof.Machine.execAnswerRefuse address code s
  | .passthroughAnswer address kind payload => Sys2Proof.Machine.execPassthroughAnswer address kind payload s
  | .duePollRaise crane => Sys2Proof.Machine.execDuePollRaise crane s
  | .positionTimeout crane => Sys2Proof.Machine.execPositionTimeout crane s
  | .reportAgeTick => Sys2Proof.Machine.execReportAgeTick s
  | .officeLengthDrop bytes => Sys2Proof.Machine.execOfficeLengthDrop bytes s
  | .resetInputRelease => Sys2Proof.Machine.execResetInputRelease s

end Sys2Proof.Machine
end

