-- ==== Sys2Proof/Safety.lean ====
section
/-! DEFINITION. What it means for a state of the part to be in order: the invariants the statements are about, and the words they
are said in. -/

namespace Sys2Proof.Machine

/-! ## When a command is taken -/

/-- Something that happens is taken: the reset input is not held, and the part stands between two steps, with no hand-off left and
the transmitter free only when nothing waits for it (R180, R187; log 4, log 5, log 6). Every state a run reaches is so. -/
abbrev Live (p : Part) : Prop :=
  p.ofp.resetHeld = false ∧ p.agenda = [] ∧ (p.ofp.sending = none → p.ofp.replies = [] ∧ p.ofp.notices = [])

/-- The request `c` is taken at once: besides `Live`, no other request stands in the waiting place, and an ordinary reply place is
free (R176, R177). -/
abbrev Ready (c : Instr) (p : Part) : Prop :=
  Live p ∧ (p.ofp.waiting = none ∨ p.ofp.waiting = some c) ∧ p.ofp.hasReplyPlace = true

/-- The Office Port after an answer: the waiting place empty, and the reply being sent, or behind the replies that wait when a frame
is being sent already (R177, R180). -/
def OfficePort.answeredWith (o : OfficePort) (r : Reply) : OfficePort :=
  if o.sending.isNone then { o with waiting := none, sending := some (.reply r) }
  else { o with waiting := none, replies := o.replies ++ [r] }

/-- The Office Port after a notice that is given outside an answer: the notice being sent, or queued or dropped by R181 when a frame
is being sent already (R180, R181). -/
def OfficePort.given (o : OfficePort) (n : Notice) : OfficePort :=
  if o.sending.isNone then
    { o with sequence := (o.sequence + 1) % 65536, sending := some (.notice ((o.sequence + 1) % 65536) n) }
  else o.notify n

/-- The command `c` answers its request with the reply `r`, and leaves the records of `q`. -/
def Answers (c : Instr) (s : State) (r : Reply) (q : Part) : Prop :=
  exec c s = .next { s with part := { q with ofp := q.ofp.answeredWith r } }

/-- The command `c` leaves the records of `q`, and answers nothing. -/
def Leaves (c : Instr) (s : State) (q : Part) : Prop := exec c s = .next { s with part := q }

/-- The part once a good answer of a station that is not LOST has ended its transaction: the line free, the misses cleared (R163,
R164). -/
def Part.answerTaken (p : Part) (x : Station) : Part :=
  { p with flp := { p.flp with inFlight := none } }.setStation x { p.station x with misses := 0 }

/-- Nothing in the hall reacts to a crane: no bed has a burn owner, and nobody waits for one. -/
abbrev HallQuiet (p : Part) : Prop := ∀ b : Bed, (p.bed b).owner = none ∧ (p.bed b).waiting = []

/-- No order at the head of a queue is of this kind. -/
abbrev HeadsQuiet (p : Part) (what : Order → Bool) : Prop := ∀ c : Crane, ((p.orderQueue c).head?.bind p.order).any what = false

/-- The kind and the tag of a request that its owner answers when it is taken: every request row but a passthrough, which is answered
when it ends (R174, R179, R190). -/
def requestHead? : Instr → Option (Nat × Nat)
  | .jobOpen t _ => some (kJobOpen, t)
  | .jobWrite t _ _ _ => some (kJobWrite, t)
  | .jobRead t _ _ _ => some (kJobRead, t)
  | .jobEnqueue t _ _ => some (kJobEnqueue, t)
  | .jobRelease t _ => some (kJobRelease, t)
  | .completionAck t => some (kCompletionAck, t)
  | .completionAckAndRelease t => some (kCompletionAckAndRelease, t)
  | .gantryEnable t _ => some (kGantryEnable, t)
  | .gantryDisable t _ => some (kGantryDisable, t)
  | .gantryHold t _ => some (kGantryHold, t)
  | .gantryRelease t _ => some (kGantryRelease, t)
  | .partDecision t _ _ _ => some (kPartDecision, t)
  | .bedDeclare t _ _ _ => some (kBedDeclare, t)
  | .bedClear t _ => some (kBedClear, t)
  | .craneOrder t _ _ _ _ => some (kCraneOrder, t)
  | .craneOrderCancel t _ => some (kCraneOrderCancel, t)
  | .remnantEnter t _ _ _ _ _ _ _ => some (kRemnantEnter, t)
  | .remnantRemove t _ => some (kRemnantRemove, t)
  | .remnantRelocate t _ _ => some (kRemnantRelocate, t)
  | .remnantUnreserve t _ => some (kRemnantUnreserve, t)
  | .store t _ => some (kStore, t)
  | .remnantRequest t _ _ _ _ _ _ _ => some (kRemnantRequest, t)
  | .loadEntryBed t _ _ _ _ _ _ _ _ => some (kLoadEntry, t)
  | .loadEntryGantry t _ _ _ _ _ _ _ _ _ _ _ _ => some (kLoadEntry, t)
  | .loadEntryCrane t _ _ _ _ _ => some (kLoadEntry, t)
  | .loadEntrySlot t _ _ _ _ _ _ => some (kLoadEntry, t)
  | .loadEntryPass t _ _ _ _ _ => some (kLoadEntry, t)
  | .loadEntryBand t _ _ _ _ => some (kLoadEntry, t)
  | .loadEntryController t _ _ _ _ _ _ _ => some (kLoadEntry, t)
  | .readEntryBed t _ _ _ => some (kReadEntry, t)
  | .readEntryGantry t _ _ _ => some (kReadEntry, t)
  | .readEntryCrane t _ _ _ => some (kReadEntry, t)
  | .readEntrySlot t _ _ _ => some (kReadEntry, t)
  | .readEntryPass t _ _ _ => some (kReadEntry, t)
  | .readEntryBand t _ _ _ => some (kReadEntry, t)
  | .readEntryController t _ _ _ => some (kReadEntry, t)
  | .readEntryPresence t _ _ _ => some (kReadEntry, t)
  | .readEntryRegistration t _ _ _ => some (kReadEntry, t)
  | .readEntryJob t _ _ _ => some (kReadEntry, t)
  | .readEntryMark t _ _ _ => some (kReadEntry, t)
  | .readEntryOrder t _ _ _ => some (kReadEntry, t)
  | .readEntryRemnant t _ _ _ => some (kReadEntry, t)
  | .readEntryStation t _ _ _ => some (kReadEntry, t)
  | .readStatus t => some (kReadStatus, t)
  | .clearFlags t => some (kClearFlags, t)
  | .controllerReset t => some (kControllerReset, t)
  | .unknownRequest t k _ => some (k, t)
  | _ => none

/-- The tag of such a request. -/
def requestTag? (c : Instr) : Option Nat := (requestHead? c).map (·.2)

/-- The rows that are a request frame, a passthrough included (R177). -/
def isRequest : Instr → Bool
  | .passthrough _ _ _ _ => true
  | c => (requestTag? c).isSome

/-! ## Invariants -/

/-- The record memory is in its canonical form. -/
def MemoryOk (p : Part) : Prop := Memory.wf p.jst.mem = true

/-- The bounds of the Office Port (R180, R181): at most 32 notices, at most four ordinary replies, sequence values below 65,536. -/
def OfficeOk (p : Part) : Prop :=
  p.ofp.notices.length ≤ noticeCapacity ∧ (p.ofp.replies.filter (fun r => !r.kept)).length ≤ replyCapacity ∧ p.ofp.sequence < 65536

/-- The part stands between two steps: no hand-off is left, and nothing waits for a free transmitter (R180; log 5, log 6). -/
def RestOk (p : Part) : Prop := p.agenda = [] ∧ (p.ofp.sending = none → p.ofp.replies = [] ∧ p.ofp.notices = [])

/-- No bed has both a burn owner and a crane claim (R7). -/
def HolderOk (p : Part) : Prop := ∀ b : Bed, (p.bed b).owner = none ∨ (p.bed b).claim = none

/-- A valid registration's plate tag equals the current plate tag of the bed it names (R6). -/
def RegistrationOk (p : Part) : Prop := ∀ g r, p.registration g = some r → (p.bed r.bed).plate = some r.plate

/-- A waiting list holds at most one request of each requester (R8). -/
def WaitingOk (p : Part) : Prop := ∀ b : Bed, ((p.bed b).waiting.map BedRequest.requester).Nodup

/-- Every page stands in one place, the pool or the page list of one job number, and a FREE number holds none (R35, R36). -/
def PagesOk (p : Part) : Prop :=
  (p.jst.pool ++ allJobs.flatMap (fun j => (p.job j).pages)).Perm (List.range 1024)
    ∧ ∀ j : JobNo, (p.job j).state = .free → (p.job j).pages = []

/-- No backlog exceeds 3 (R97). -/
def BacklogOk (p : Part) : Prop := ∀ g : Gantry, (p.engine g).backlog ≤ 3

/-- An order queue holds at most 16 numbers, each once, and each that of an order in use of the crane (R122). -/
def QueuesOk (p : Part) : Prop :=
  ∀ c : Crane, (p.orderQueue c).length ≤ orderQueueCapacity ∧ (p.orderQueue c).Nodup
    ∧ ∀ n ∈ p.orderQueue c, ∃ o, p.order n = some o ∧ o.crane = c

/-- How many passthroughs are pending, in flight, or answered in the kept place of the reply queue (R174, R180). -/
def Part.passthroughs (p : Part) : Nat :=
  (p.flp.pending.filter (fun r => r.frame.cls == 6)).length + (p.flp.inFlight.toList.filter (fun t => t.request.frame.cls == 6)).length
    + (p.ofp.replies.filter (fun r => r.kept)).length

/-- At most one passthrough is under way, and then it is held: the kept place is never asked for twice (R174, R180). -/
def PassOk (p : Part) : Prop := p.passthroughs ≤ 1 ∧ (p.passthroughs = 1 → p.flp.passHeld.isSome = true)

/-- Every remnant number has been given by the entry sequence, and none twice (R142). -/
def RemnantsOk (p : Part) : Prop :=
  (∀ r ∈ p.rsu.remnants, r.number ≤ p.rsu.sequence) ∧ (p.rsu.remnants.map Remnant.number).Nodup

end Sys2Proof.Machine
end

