-- ==== Sys2Proof/Certificates/Slice0/Obligations.lean ====
section
/-! DEFINITION. The statements for the provers. `Ready`, `Live`, `Answers` and `Leaves` are said in Safety.lean; the whole next state
stands in most conclusions, so each of these is its own frame: what is not named is as before. -/

open Sys2Proof Sys2Proof.Machine

/-! ## The machine -/

/-- One step takes the command at the front of the queue and runs it with the queue's rest. The queue of waiting commands is the model's
own (log 1). -/
def Obligations.StepRunsTheFrontCommand : Prop :=
  ∀ (c : Instr) (rest : List Instr) (s : Machine.State), s.pending = c :: rest → step s = exec c { s with pending := rest }

/-- Every command answers a next state, and leaves the queue as it is; on an empty queue the part idles (log 1). -/
def Obligations.ThePartNeverStops : Prop :=
  (∀ (c : Instr) (s : Machine.State), ∃ t, exec c s = .next t ∧ t.pending = s.pending)
  ∧ (∀ s : Machine.State, s.pending = [] → step s = .next s)

/-- While the reset input is held nothing but a reset changes the part (log 4); a request waits in the waiting place, unchanged and
without effect, while no ordinary reply place is free (R177); a request that finds another one waiting is dropped (R176). -/
def Obligations.RequestsThatAreNotTaken : Prop :=
  ∀ (c : Instr) (s : Machine.State),
    (s.part.ofp.resetHeld = true → (∀ byInput, c ≠ .coldReset byInput) → c ≠ .resetInputRelease → exec c s = .next s)
    ∧ (isRequest c = true → s.part.ofp.resetHeld = false → (s.part.ofp.waiting = none ∨ s.part.ofp.waiting = some c) →
        s.part.ofp.hasReplyPlace = false → Leaves c s { s.part with ofp := { s.part.ofp with waiting := some c } })
    ∧ (∀ d, isRequest c = true → s.part.ofp.resetHeld = false → s.part.ofp.waiting = some d → d ≠ c → exec c s = .next s)

/-- A request that is taken is answered once (R179): one reply with its kind, its tag and a reason code enters the reply queue last and
is sent when nothing is sent or waits before it. Refused, it carries no fields and leaves everything but the Office Port as it was
(00 §7). The one reply that can enter before it is the NO_ANSWER of a passthrough that a CONTROLLER RESET ends (R186). That a free
transmitter begins the reply ahead of the notices of the same step is log 5. -/
def Obligations.EveryRequestIsAnswered : Prop :=
  ∀ (c : Instr) (kind tag : Nat) (s : Machine.State), requestHead? c = some (kind, tag) → Ready c s.part →
    ∃ (t : Machine.State) (r : Reply) (ended : List Reply), exec c s = .next t ∧ r.kind = kind ∧ r.tag = tag ∧ r.kept = false
      ∧ (r.code ≠ .ok → r.body = .none ∧ t.part = { s.part with ofp := s.part.ofp.answeredWith r })
      ∧ ((∀ n, c ≠ .controllerReset n) → ended = [])
      ∧ (ended = [] ∨ ∃ n, ended = [{ kind := kPassthrough, tag := n, code := .noAnswer, kept := true }])
      ∧ t.part.ofp.waiting = none
      ∧ (∀ f, s.part.ofp.sending = some f →
          t.part.ofp.sending = some f ∧ t.part.ofp.replies = s.part.ofp.replies ++ ended ++ [r])
      ∧ (s.part.ofp.sending = none →
          ∃ first, t.part.ofp.sending = some (.reply first) ∧ first :: t.part.ofp.replies = ended ++ [r])

/-! ## The Job Store -/

/-- JOB OPEN (R38). -/
def Obligations.JobOpenTakesTheLowestNumber : Prop :=
  ∀ (s : Machine.State) (tag n : Nat) (j : JobNo),
    Ready (.jobOpen tag n) s.part → 1 ≤ n → n ≤ 256 → n ≤ s.part.jst.pool.length → (s.part.job j).state = .free →
    (∀ k : JobNo, k < j → (s.part.job k).state ≠ .free) →
    let mem := (s.part.jst.pool.take n).foldl Memory.erasePage s.part.jst.mem
    Answers (.jobOpen tag n) s { kind := kJobOpen, tag := tag, code := .ok, body := .jobOpened j n }
      { s.part with
        jst := { s.part.jst with
          mem := mem,
          pool := s.part.jst.pool.drop n,
          jobs := put s.part.jst.jobs j
            { state := .opened, gantry := none, pages := s.part.jst.pool.take n, inCompletion := false } } }
    ∧ (∀ a, a / 16 ∈ s.part.jst.pool.take n → Memory.read mem a = .empty)
    ∧ (∀ a, a / 16 ∉ s.part.jst.pool.take n → Memory.read mem a = Memory.read s.part.jst.mem a)

/-- JOB WRITE (R39, R41): the records at their places, and every other record as before. -/
def Obligations.JobWriteStoresTheRecords : Prop :=
  ∀ (s : Machine.State) (tag offset : Nat) (j : JobNo) (records : List (List Byte)) (rs : List Record),
    Ready (.jobWrite tag j offset records) s.part → (s.part.job j).state = .opened → 1 ≤ records.length → records.length ≤ 8 →
    ¬ (offset ≤ 1 ∧ 1 < offset + records.length) → offset + records.length ≤ 16 * (s.part.job j).pages.length →
    parseRecords records = some rs →
    ∃ mem, Answers (.jobWrite tag j offset records) s { kind := kJobWrite, tag := tag, code := .ok }
        { s.part with jst := { s.part.jst with mem := mem } }
      ∧ (∀ a, (∀ i, i < rs.length → (s.part.job j).address (offset + i) ≠ some a) →
          Memory.read mem a = Memory.read s.part.jst.mem a)
      ∧ ((s.part.job j).pages.Nodup → ∀ i (h : i < rs.length),
          ∃ a, (s.part.job j).address (offset + i) = some a ∧ Memory.read mem a = rs[i])

/-- JOB READ (R42): the records from the offset upward, fewer at the end of the job's pages; nothing changes. -/
def Obligations.JobReadReturnsTheRecords : Prop :=
  ∀ (s : Machine.State) (tag offset count : Nat) (j : JobNo),
    Ready (.jobRead tag j offset count) s.part → (s.part.job j).state ≠ .free → 1 ≤ count → count ≤ 8 →
    offset < 16 * (s.part.job j).pages.length →
    Answers (.jobRead tag j offset count) s
      { kind := kJobRead, tag := tag, code := .ok,
        body := .records ((List.range (min count (16 * (s.part.job j).pages.length - offset))).map
          (fun i => s.part.record j (offset + i))) }
      s.part

/-- JOB ENQUEUE on a queue that has a head (R43): the job goes to the tail. -/
def Obligations.JobEnqueueGoesToTheTail : Prop :=
  ∀ (s : Machine.State) (tag : Nat) (j : JobNo) (g : Gantry) (plate : Tag) (b : Bed) (grade thickness parts : Nat) (condition : Condition)
      (declared : Option (Nat × Nat)),
    Ready (.jobEnqueue tag j g) s.part → (s.part.job j).state = .opened →
    s.part.record j 0 = .header plate b grade thickness condition declared parts → 1 ≤ parts → parts ≤ 999 →
    (s.part.bed b).loaded = true → (s.part.params g).loaded = true → b ∈ (s.part.params g).reach → s.part.queue g ≠ [] →
    Answers (.jobEnqueue tag j g) s
      { kind := kJobEnqueue, tag := tag, code := .ok, body := .enqueued ((s.part.queue g).length + 1) }
      ((s.part.setJob j { s.part.job j with state := .queued, gantry := some g }).setQueue g (s.part.queue g ++ [j]))

/-- JOB ENQUEUE to an idle gantry with no other job, its bed free and clear and its plate as the header says, and no registration that
serves it (R43, R44, R74 to R77): the job starts in the same step, the gantry owns the bed, and a REGISTER is requested. And a job ends
(R77, R93, R94): REGISTER_FAILED for a mill plate, with no other job and no backlog, nobody waiting for the bed. The completion record
is written and the job joins the completion queue, the bed is released as it lay, the mark context is emptied of the job, and the
engine is IDLE without it. Its pending frames are withdrawn, those sent, missed and kept among them (log 7). -/
def Obligations.AJobStartsWhenItsBedIsFree : Prop :=
  (∀ (s : Machine.State) (tag : Nat) (j : JobNo) (g : Gantry) (plate : Tag) (b : Bed) (grade thickness parts : Nat) (condition : Condition)
      (declared : Option (Nat × Nat)),
    Ready (.jobEnqueue tag j g) s.part → (s.part.job j).state = .opened →
    s.part.record j 0 = .header plate b grade thickness condition declared parts → 1 ≤ parts → parts ≤ 999 →
    (s.part.bed b).loaded = true → (s.part.params g).loaded = true → b ∈ (s.part.params g).reach → s.part.queue g = [] →
    (s.part.engine g).state = .idle → (s.part.engine g).bedRequest = .none → (s.part.engine g).held.office = false →
    (s.part.engine g).idleReference = false →
    (s.part.bed b).owner = none → (s.part.bed b).claim = none → s.part.bedClear b = true → s.part.bodyWellFormed j parts = true →
    plateCheck (s.part.bed b) plate condition = none → (∀ r, s.part.registration g = some r → r.serves b plate = false) →
    ∃ t, exec (.jobEnqueue tag j g) s = .next t
      ∧ t.part.job j = { s.part.job j with state := .active, gantry := some g }
      ∧ t.part.queue g = []
      ∧ (t.part.bed b).owner = some g ∧ (t.part.bed b).claim = none ∧ (t.part.bed b).plate = (s.part.bed b).plate
      ∧ (t.part.engine g).state = .register ∧ (t.part.engine g).job = some j ∧ (t.part.engine g).bedRequest = .owner
      ∧ (t.part.engine g).nextRecord = some 2 ∧ (t.part.engine g).counters = {}
      ∧ t.part.registration g = none
      ∧ t.part.flp.pending = s.part.flp.pending ++ [⟨gantryStation g, .register b (s.part.bed b).origin⟩]
      ∧ t.part.ofp.sequence = (s.part.ofp.sequence + 1) % 65536
      ∧ t.part.jst.mem = s.part.jst.mem ∧ t.part.cou = s.part.cou ∧ t.part.rsu = s.part.rsu)
  ∧ (∀ (s : Machine.State) (g : Gantry) (w num grade thickness parts a : Nat) (j : JobNo) (b : Bed) (condition : Condition)
      (declared : Option (Nat × Nat)), Live s.part →
    s.part.flp.inFlight = some ⟨⟨gantryStation g, .poll false⟩, w⟩ → (s.part.station (gantryStation g)).lost = false →
    (s.part.engine g).state = .register → (s.part.engine g).job = some j → (s.part.engine g).pendingOutcome = none →
    (s.part.engine g).counters.partsCut = 0 → (s.part.engine g).backlog = 0 → s.part.queue g = [] →
    s.part.record j 0 = .header ⟨.mill, num⟩ b grade thickness condition declared parts → (s.part.job j).address 1 = some a →
    (s.part.bed b).claim = none → (s.part.bed b).waiting = [] →
    let ending : Completion := { outcome := .registerFail, counters := (s.part.engine g).counters, stopRecord := none }
    ∃ t, exec (.gantryPollAnswer (stationAddress (gantryStation g)) [.registerFailed]) s = .next t
      ∧ Memory.read t.part.jst.mem a = .completion ending
      ∧ (∀ x, x ≠ a → Memory.read t.part.jst.mem x = Memory.read s.part.jst.mem x)
      ∧ t.part.job j = { s.part.job j with state := .completed, gantry := some g, inCompletion := true }
      ∧ (∀ k : JobNo, k ≠ j → t.part.job k = s.part.job k)
      ∧ t.part.jst.completions = s.part.jst.completions ++ [j] ∧ t.part.jst.pool = s.part.jst.pool
      ∧ t.part.jst.queues = s.part.jst.queues
      ∧ t.part.ofp = (if s.part.jst.completions = [] then s.part.ofp.given (.completionPending j .registerFail) else s.part.ofp)
      ∧ t.part.bed b = { s.part.bed b with owner := none } ∧ (∀ x : Bed, x ≠ b → t.part.bed x = s.part.bed x)
      ∧ t.part.hmp.presences = s.part.hmp.presences ∧ t.part.hmp.cranes = s.part.hmp.cranes
      ∧ t.part.engine g =
          { s.part.engine g with
            state := .idle, held := { office := (s.part.engine g).held.office, cranePresent := false, markDecision := false },
            job := none, bedRequest := .none, nextRecord := none, chainPierce := none, outstanding := [], credit := 0, retryCount := 0,
            stopPoint := none, pendingOutcome := none, pendingStop := none, refReturn := none, partUnmarked := false,
            chainDone := false }
      ∧ (∀ h : Gantry, h ≠ g → t.part.engine h = s.part.engine h) ∧ t.part.bds.registrations = s.part.bds.registrations
      ∧ t.part.bds.params = s.part.bds.params
      ∧ (t.part.marks g).marks = [] ∧ (t.part.marks g).sendList = [] ∧ (t.part.marks g).unresolved = []
      ∧ (t.part.marks g).phase = .none ∧ (∀ x f, look (t.part.marks g).slots x = some f → f.job = none)
      ∧ (∀ h : Gantry, h ≠ g → t.part.marks h = s.part.marks h)
      ∧ t.part.flp.inFlight = none
      ∧ t.part.station (gantryStation g) = { s.part.station (gantryStation g) with misses := 0 }
      ∧ t.part.flp.pending = s.part.flp.pending.filter (fun r => !(r.station = gantryStation g && (r.frame.cls == 4 || r.frame.cls == 5)))
      ∧ t.part.cou = s.part.cou ∧ t.part.rsu = s.part.rsu)

/-- JOB RELEASE (R45), whole. -/
def Obligations.JobReleaseGivesBackThePages : Prop :=
  ∀ (s : Machine.State) (tag job : Nat), Ready (.jobRelease tag job) s.part →
    ((64 ≤ job ∨ ∃ j : JobNo, j.val = job ∧ (s.part.job j).state = .free) →
      Answers (.jobRelease tag job) s { kind := kJobRelease, tag := tag, code := .badJob } s.part)
    ∧ (∀ j : JobNo, j.val = job →
        ((s.part.job j).state = .opened ∨ ((s.part.job j).state = .completed ∧ (s.part.job j).inCompletion = false)) →
        let q := { s.part with
          jst := { s.part.jst with
            pool := s.part.jst.pool ++ (s.part.job j).pages,
            jobs := put s.part.jst.jobs j { state := .free, gantry := none, pages := [], inCompletion := false } } }
        Answers (.jobRelease tag job) s { kind := kJobRelease, tag := tag, code := .ok } q
        ∧ ((∀ k : JobNo, k < j → (s.part.job k).state ≠ .free) → allJobs.find? (fun k => (q.job k).isFree) = some j))
    ∧ (∀ j : JobNo, j.val = job →
        ((s.part.job j).state = .queued ∨ (s.part.job j).state = .active
          ∨ ((s.part.job j).state = .completed ∧ (s.part.job j).inCompletion = true)) →
        Answers (.jobRelease tag job) s { kind := kJobRelease, tag := tag, code := .inUse } s.part)

/-- COMPLETION ACK (R50). -/
def Obligations.CompletionAckTakesTheHead : Prop :=
  ∀ (s : Machine.State) (tag : Nat), Ready (.completionAck tag) s.part →
    (s.part.jst.completions = [] →
      Answers (.completionAck tag) s { kind := kCompletionAck, tag := tag, code := .state } s.part)
    ∧ (∀ j rest, s.part.jst.completions = j :: rest →
        Answers (.completionAck tag) s
          { kind := kCompletionAck, tag := tag, code := .ok, body := .acknowledged j rest.length rest.head? }
          { s.part with
            jst := { s.part.jst with
              completions := rest, jobs := put s.part.jst.jobs j { s.part.job j with inCompletion := false } } })

/-- COMPLETION ACK AND RELEASE (R51), whole. -/
def Obligations.CompletionAckAndReleaseTakesTheHead : Prop :=
  ∀ (s : Machine.State) (tag : Nat), Ready (.completionAckAndRelease tag) s.part →
    (s.part.jst.completions = [] →
      Answers (.completionAckAndRelease tag) s { kind := kCompletionAckAndRelease, tag := tag, code := .state } s.part)
    ∧ (∀ j rest, s.part.jst.completions = j :: rest →
        Answers (.completionAckAndRelease tag) s
          { kind := kCompletionAckAndRelease, tag := tag, code := .ok,
            body := .released j (s.part.record j 1) rest.length rest.head? }
          { s.part with
            jst := { s.part.jst with
              completions := rest, pool := s.part.jst.pool ++ (s.part.job j).pages,
              jobs := put s.part.jst.jobs j { state := .free, gantry := none, pages := [], inCompletion := false } } })

/-! ## The Burn Dispatcher and the Mark Sequencer -/

/-- GANTRY ENABLE (R69, R119, R98): the engine enters INIT, its registration, mark context and station entry are made new, and the
INIT frame is requested. Texts sent, missed and kept are withdrawn with the pending ones (log 7). -/
def Obligations.GantryEnableStartsTheEngine : Prop :=
  ∀ (s : Machine.State) (tag : Nat) (g : Gantry), Ready (.gantryEnable tag g) s.part →
    ((s.part.engine g).state = .off ∨ (s.part.engine g).state = .fault) → (s.part.params g).loaded = true →
    Answers (.gantryEnable tag g) s { kind := kGantryEnable, tag := tag, code := .ok }
      (((((s.part.setRegistration g none).emptyMarks g true).setStation (gantryStation g)
            { misses := 0, lost := false, cause := none }).setEngine g
          { s.part.engine g with
            state := .init, retryCount := 0, backlog := 3, accumulator := 0, idleReference := false, refReturn := none,
            held := { office := (s.part.engine g).held.office, cranePresent := false, markDecision := false } }).request
        (gantryStation g) (s.part.params g).initFrame)

/-- GANTRY DISABLE of an engine without a job, a bed request or an arc (R72, R119): the engine enters OFF, its frames are withdrawn,
its mark context is emptied. Frames sent, missed and kept are among those withdrawn (log 7). -/
def Obligations.GantryDisableWithoutAJob : Prop :=
  ∀ (s : Machine.State) (tag : Nat) (g : Gantry), Ready (.gantryDisable tag g) s.part →
    (s.part.engine g).state ≠ .off → (s.part.engine g).state.mayBurn = false → (s.part.engine g).job = none →
    (s.part.engine g).bedRequest = .none →
    Answers (.gantryDisable tag g) s { kind := kGantryDisable, tag := tag, code := .ok }
      (((s.part.withdraw (isDispatch g)).emptyMarks g false).setEngine g
        { s.part.engine g with state := .off, idleReference := false, refReturn := none })

/-- GANTRY HOLD and GANTRY RELEASE (R71): the held reason OFFICE, and nothing else, of an engine that neither waits for a bed nor
stands in IDLE or HELD. A hold also ends the request of an engine that waits for a bed. -/
def Obligations.HoldAndReleaseMoveTheOfficeReason : Prop :=
  ∀ (s : Machine.State) (tag : Nat) (g : Gantry),
    (Ready (.gantryHold tag g) s.part → ¬ ((s.part.engine g).state = .idle ∧ (s.part.engine g).bedRequest = .waiting) →
      Answers (.gantryHold tag g) s { kind := kGantryHold, tag := tag, code := .ok }
        (s.part.setEngine g { s.part.engine g with held := { (s.part.engine g).held with office := true } }))
    ∧ (Ready (.gantryHold tag g) s.part → (s.part.engine g).state = .idle → (s.part.engine g).bedRequest = .waiting →
      Answers (.gantryHold tag g) s { kind := kGantryHold, tag := tag, code := .ok }
        ((s.part.setEngine g
          { s.part.engine g with bedRequest := .none, held := { (s.part.engine g).held with office := true } }).withdrawBed (.gantry g)))
    ∧ (Ready (.gantryRelease tag g) s.part → (s.part.engine g).held.office = false →
      Answers (.gantryRelease tag g) s { kind := kGantryRelease, tag := tag, code := .ok } s.part)
    ∧ (Ready (.gantryRelease tag g) s.part → (s.part.engine g).held.office = true →
        (s.part.engine g).state ≠ .idle → (s.part.engine g).state ≠ .held →
      Answers (.gantryRelease tag g) s { kind := kGantryRelease, tag := tag, code := .ok }
        (s.part.setEngine g { s.part.engine g with held := { (s.part.engine g).held with office := false } }))

/-- PART DECISION on an unresolved failure of a part at which the engine is not held (R115, R116): the part leaves the list of
unresolved failures and takes the status of the decision; a retry outside a phase leaves it RETRY. A part not in the list is
NOT_FOUND. -/
def Obligations.PartDecisionSettlesAFailedMark : Prop :=
  ∀ (s : Machine.State) (tag part : Nat) (g : Gantry), 1 ≤ part → part ≤ 999 →
    (∀ decision, decision ≤ 2 → Ready (.partDecision tag g part decision) s.part → part ∉ (s.part.marks g).unresolved →
      Answers (.partDecision tag g part decision) s { kind := kPartDecision, tag := tag, code := .notFound } s.part)
    ∧ (∀ decision status, (decision = 0 ∧ status = .skip) ∨ (decision = 1 ∧ status = .unmarked)
          ∨ (decision = 2 ∧ status = .retry ∧ (s.part.marks g).phase ≠ .first) →
        Ready (.partDecision tag g part decision) s.part → part ∈ (s.part.marks g).unresolved →
        ¬ ((s.part.engine g).state = .held ∧ (s.part.engine g).counters.lastPart = part) →
        Answers (.partDecision tag g part decision) s { kind := kPartDecision, tag := tag, code := .ok }
          (s.part.setMarks g
            { s.part.marks g with
              unresolved := (s.part.marks g).unresolved.filter (· != part),
              marks := (s.part.marks g).marks.map (fun e => if e.index = part then { e with status := status } else e) }))

/-! ## Beds and crane orders -/

/-- BED DECLARE (R10, R6) of a bed nobody waits for: the tag and partly-cut, and no registration of the bed left. -/
def Obligations.BedDeclareSetsThePlate : Prop :=
  ∀ (s : Machine.State) (tag num code : Nat) (b : Bed) (condition : Condition),
    Ready (.bedDeclare tag b ⟨1, num⟩ code) s.part → 1 ≤ num → num ≤ 4294967295 → condition? code = some condition →
    (s.part.bed b).owner = none → (s.part.bed b).claim = none → (s.part.bed b).loaded = true → (s.part.bed b).plate = none →
    (s.part.bed b).skeleton = false → (∀ x : Bed, x ≠ b → (s.part.bed x).plate ≠ some ⟨.mill, num⟩) →
    (s.part.bed b).waiting = [] → HeadsQuiet s.part (fun o => o.source == .bed b || o.destination == .bed b) →
    Answers (.bedDeclare tag b ⟨1, num⟩ code) s { kind := kBedDeclare, tag := tag, code := .ok }
      ((s.part.setBed b
        { s.part.bed b with plate := some ⟨.mill, num⟩, skeleton := false, partlyCut := condition == .continuation }).invalidateBed b)

/-- BED CLEAR (R11, R6) of a bed nobody waits for: the bed EMPTY; the remnant its tag names with location UNKNOWN. That no slot changes,
wherever the record of that remnant lies, is log 46. -/
def Obligations.BedClearEmptiesTheBed : Prop :=
  ∀ (s : Machine.State) (tag : Nat) (b : Bed), Ready (.bedClear tag b) s.part → (s.part.bed b).owner = none → (s.part.bed b).claim = none →
    (s.part.bed b).waiting = [] → HeadsQuiet s.part (fun o => o.source == .bed b || o.destination == .bed b) →
    (∀ t, (s.part.bed b).plate = some t → t.kind = .mill →
      Answers (.bedClear tag b) s { kind := kBedClear, tag := tag, code := .ok }
        ((s.part.setBed b { s.part.bed b with plate := none, skeleton := false, partlyCut := false }).invalidateBed b))
    ∧ ((s.part.bed b).plate = none →
      Answers (.bedClear tag b) s { kind := kBedClear, tag := tag, code := .ok }
        (s.part.setBed b { s.part.bed b with skeleton := false, partlyCut := false }))
    ∧ (∀ n, (s.part.bed b).plate = some ⟨.remnant, n⟩ → HeadsQuiet s.part (fun o => o.load.remnant? == some n) →
      Answers (.bedClear tag b) s { kind := kBedClear, tag := tag, code := .ok }
        (((s.part.setBed b { s.part.bed b with plate := none, skeleton := false, partlyCut := false }).invalidateBed b).setRemnants
          (s.part.rsu.remnants.map (fun r => if r.number = n then { r with location := .unknown } else r))))

/-- CRANE ORDER on a queue that has a head (R123, R124): the lowest free record, QUEUED, at the tail of the queue. -/
def Obligations.CraneOrderIsPlaced : Prop :=
  ∀ (s : Machine.State) (tag : Nat) (c : Crane) (n : OrderNo) (x y : RawPlace) (z : RawTag) (source destination : Place) (load : Load),
    Ready (.craneOrder tag c x y z) s.part → place? x = some source → place? y = some destination → load? z = some load →
    combinationOk source destination load = true → s.part.placeUsable c source = true → s.part.placeUsable c destination = true →
    s.part.order n = none → (∀ k : OrderNo, k < n → s.part.order k ≠ none) → s.part.orderQueue c ≠ [] →
    (s.part.orderQueue c).length < 16 →
    Answers (.craneOrder tag c x y z) s
      { kind := kCraneOrder, tag := tag, code := .ok, body := .orderPlaced n ((s.part.orderQueue c).length + 1) }
      ((s.part.setOrder n (some
        { crane := c, origin := .office, source := source, destination := destination, load := load, requestTag := some tag,
          state := .queued, held := {}, waiting := false, sourceClaim := false, destClaim := false, prior := none,
          answered := false, cause := none })).setOrderQueue c (s.part.orderQueue c ++ [n]))

/-- CRANE ORDER of a plate from the infeed to a bed, on an empty queue of a TRACKING crane, the bed EMPTY and free (R124, R126 to
R129, R7): the order is SENT in the same step, it claims the bed, and its ORDER frame is requested. And the events of an order of a mill
plate from a bed to the outfeed, the one order of its crane, in a hall where nobody waits (R131 to R135, R4, R6, R170): PICKED lifts the
plate, releases the claim and sets the order PICKED; PLACED ends it DONE; ABORTED, before the plate is lifted, releases the claim, leaves
the bed its content and ends it ABORTED. At its end the record is free, the queue empty, and CRANE_ORDER is given. -/
def Obligations.AnOrderIsReleasedWhenItsConditionsHold : Prop :=
  (∀ (s : Machine.State) (tag num : Nat) (c : Crane) (n : OrderNo) (b : Bed),
    Ready (.craneOrder tag c ⟨2, 0⟩ ⟨0, b⟩ ⟨1, num⟩) s.part → 1 ≤ num → num ≤ 4294967295 →
    (s.part.bed b).loaded = true → (s.part.bed b).owner = none → (s.part.bed b).claim = none → (s.part.bed b).plate = none →
    (s.part.bed b).skeleton = false → (s.part.crane c).state = .tracking → s.part.orderQueue c = [] →
    s.part.order n = none → (∀ k : OrderNo, k < n → s.part.order k ≠ none) →
    ∃ t o, exec (.craneOrder tag c ⟨2, 0⟩ ⟨0, b⟩ ⟨1, num⟩) s = .next t
      ∧ t.part.order n = some o ∧ o.state = .sent ∧ o.destClaim = true ∧ o.sourceClaim = false ∧ o.answered = false
      ∧ o.requestTag = some tag ∧ o.load = .plate ⟨.mill, num⟩
      ∧ t.part.orderQueue c = [n]
      ∧ (t.part.bed b).claim = some n ∧ (t.part.bed b).owner = none
      ∧ t.part.flp.pending = s.part.flp.pending
          ++ [⟨craneStation c, .order n ⟨.infeed, none⟩ ⟨.bed b, (s.part.bed b).origin⟩ (.plate ⟨.mill, num⟩)⟩]
      ∧ t.part.jst = s.part.jst ∧ t.part.bds = s.part.bds ∧ t.part.mks = s.part.mks ∧ t.part.rsu = s.part.rsu)
  ∧ (∀ (s : Machine.State) (c : Crane) (w num : Nat) (due : Bool) (x y : Int) (hookLow loaded : Bool) (n : OrderNo) (o : Order) (b : Bed),
    Live s.part → s.part.flp.inFlight = some ⟨⟨craneStation c, .poll due⟩, w⟩ → (s.part.station (craneStation c)).lost = false →
    (s.part.crane c).state = .tracking → HallQuiet s.part → s.part.orderQueue c = [n] → s.part.orderQueue (otherCrane c) = [] →
    s.part.order n = some o → o.crane = c → o.origin = .office → o.source = .bed b → o.destination = .outfeed →
    o.load = .plate ⟨.mill, num⟩ → o.waiting = false → o.destClaim = false →
    let answer (k : OrderEventKind) : Instr := .cranePollAnswer (stationAddress (craneStation c)) x y hookLow loaded (some (k, n))
    let reported (t : Machine.State) : Prop :=
      t.part.crane c =
          { s.part.crane c with
            last := some ⟨clampTo s.part.hmp.hallLength x, clampTo s.part.hmp.hallWidth y, hookLow, loaded⟩, age := 0,
            duePoll := false }
        ∧ (∀ a : Bed, a ≠ b → t.part.bed a = s.part.bed a) ∧ t.part.flp.inFlight = none
        ∧ t.part.flp.pending = s.part.flp.pending.filter (fun r => !isDuePoll c r)
        ∧ (∀ m : OrderNo, m ≠ n → t.part.order m = s.part.order m) ∧ t.part.orderQueue (otherCrane c) = []
        ∧ t.part.jst = s.part.jst ∧ t.part.mks = s.part.mks ∧ t.part.rsu = s.part.rsu
    let ended (t : Machine.State) (state : OrderState) (cause : Option OrderCause) : Prop :=
      t.part.order n = none ∧ t.part.orderQueue c = []
        ∧ t.part.ofp = s.part.ofp.given (.craneOrder n c .office (.bed b) .outfeed o.load state cause o.requestTag)
    (o.state = .sent → o.sourceClaim = true →
      ∃ t, exec (answer .picked) s = .next t ∧ reported t
        ∧ t.part.order n = some { o with state := .picked, sourceClaim := false } ∧ t.part.orderQueue c = [n]
        ∧ t.part.bed b = { s.part.bed b with plate := none, partlyCut := false, claim := none } ∧ t.part.ofp = s.part.ofp
        ∧ (∀ g : Gantry, t.part.registration g
            = if (s.part.bed b).plate ≠ none ∧ (s.part.registration g).any (fun r => r.bed == b) = true then none
              else s.part.registration g)
        ∧ t.part.bds.engines = s.part.bds.engines ∧ t.part.bds.params = s.part.bds.params)
    ∧ (o.state = .picked → o.sourceClaim = false →
      ∃ t, exec (answer .placed) s = .next t ∧ reported t ∧ ended t .done none ∧ t.part.bed b = s.part.bed b
        ∧ t.part.bds = s.part.bds)
    ∧ (o.state = .sent → o.sourceClaim = true →
      ∃ t, exec (answer .aborted) s = .next t ∧ reported t ∧ ended t .aborted (some .crane)
        ∧ t.part.bed b = { s.part.bed b with claim := none } ∧ t.part.bds = s.part.bds))

/-- CRANE ORDER CANCEL of a QUEUED order of the supervisor behind the head (R135, R136): out of its queue, its record free, its
CRANE_ORDER notice handed over. A free transmitter begins at the end of the step and takes the reply first, so that the notice waits
behind it (log 5). -/
def Obligations.CraneOrderCancelEndsTheOrder : Prop :=
  ∀ (s : Machine.State) (tag : Nat) (n : OrderNo) (o : Order), Ready (.craneOrderCancel tag n) s.part →
    s.part.order n = some o → o.state = .queued → o.origin = .office → o.waiting = false →
    (s.part.orderQueue o.crane).head? ≠ some n →
    Answers (.craneOrderCancel tag n) s { kind := kCraneOrderCancel, tag := tag, code := .ok }
      (((s.part.setOrderQueue o.crane ((s.part.orderQueue o.crane).filter (· != n))).setOrder n none).notify
        (.craneOrder n o.crane .office o.source o.destination o.load .cancelled none o.requestTag))

/-! ## The remnant stock -/

/-- REMNANT ENTER and REMNANT RELOCATE onto a rack slot (R148, R150, R140, R142), coded 0 (log 9): the record with the next sequence value,
or the record named, at the top of the stack. Every number in the table has been given by the entry sequence, as in every state a run
reaches (the statement on remnant numbers below). -/
def Obligations.ARemnantIsPutOnASlot : Prop :=
  ∀ (s : Machine.State) (tag : Nat) (k : SlotNo), (s.part.slot k).claim = none → (s.part.slot k).loaded = true → s.part.committed k < 4 →
    s.part.slotReserved k none = false → HeadsQuiet s.part (fun o => o.source == .slot k || o.destination == .slot k) →
    (∀ (grade thickness width length heatLength : Nat) (chars : List Byte) (heat : Option (List Byte)),
      Ready (.remnantEnter tag grade thickness width length heatLength chars ⟨0, k⟩) s.part →
      (∀ r ∈ s.part.rsu.remnants, r.number ≤ s.part.rsu.sequence) →
      grade ≤ 15 → 30 ≤ thickness → thickness ≤ 1500 → 1 ≤ width → width ≤ 24000 → 1 ≤ length → length ≤ 24000 →
      heat? heatLength chars = some heat → (s.part.slot k).admits width length = true → s.part.rsu.remnants.length < 128 →
      s.part.rsu.sequence < 4294967295 → HeadsQuiet s.part (fun o => o.load.remnant? == some (s.part.rsu.sequence + 1)) →
      Answers (.remnantEnter tag grade thickness width length heatLength chars ⟨0, k⟩) s
        { kind := kRemnantEnter, tag := tag, code := .ok, body := .remnantNumber (s.part.rsu.sequence + 1) }
        { s.part with
          rsu := { s.part.rsu with
            sequence := s.part.rsu.sequence + 1,
            remnants := s.part.rsu.remnants ++
              [{ number := s.part.rsu.sequence + 1, grade := grade, thickness := thickness, width := width, length := length,
                 heat := heat, origin := none, location := .slot k (s.part.slot k).stack.length, state := .free,
                 reservation := none, restack := [] }],
            slots := put s.part.rsu.slots k
              { s.part.slot k with stack := (s.part.slot k).stack ++ [s.part.rsu.sequence + 1] } } })
    ∧ (∀ (n : Nat) (r : Remnant), Ready (.remnantRelocate tag n ⟨0, k⟩) s.part → s.part.remnant n = some r → r.location = .unknown →
      (∀ b : Bed, (s.part.bed b).plate ≠ some ⟨.remnant, n⟩) → (s.part.slot k).admits r.width r.length = true →
      HeadsQuiet s.part (fun o => o.load.remnant? == some n) →
      Answers (.remnantRelocate tag n ⟨0, k⟩) s { kind := kRemnantRelocate, tag := tag, code := .ok }
        { s.part with
          rsu := { s.part.rsu with
            remnants := s.part.rsu.remnants.map (fun x =>
              if x.number = n then { x with location := .slot k (s.part.slot k).stack.length } else x),
            slots := put s.part.rsu.slots k { s.part.slot k with stack := (s.part.slot k).stack ++ [n] } } })

/-- REMNANT REMOVE (R149, R144), whole: NOT_FOUND without a record; IN_USE in transit or as the load of an order, wherever it lies (log 47);
STATE below the top of a slot, claimed or not (R144); IN_USE at the top of a slot that has a claim or on a bed that is held; else the
record is removed, from a slot with its place in the stack, from a bed with the bed's tag kept, and from a hook or nowhere with nothing
else. -/
def Obligations.RemnantRemoveTakesTheRecordOut : Prop :=
  ∀ (s : Machine.State) (tag n : Nat), Ready (.remnantRemove tag n) s.part →
    ((∀ r ∈ s.part.rsu.remnants, r.number ≠ n) →
      Answers (.remnantRemove tag n) s { kind := kRemnantRemove, tag := tag, code := .notFound } s.part)
    ∧ (∀ r, s.part.remnant n = some r →
      let moving := r.state = .inTransit ∨ s.part.remnantInOrders n = true
      let below := ∃ k level, r.location = .slot k level ∧ (s.part.slot k).stack.getLast? ≠ some n
      let held := (∃ k level, r.location = .slot k level ∧ (s.part.slot k).claim ≠ none)
        ∨ (∃ b, r.location = .bed b ∧ ((s.part.bed b).owner ≠ none ∨ (s.part.bed b).claim ≠ none))
      (moving → Answers (.remnantRemove tag n) s { kind := kRemnantRemove, tag := tag, code := .inUse } s.part)
      ∧ (¬ moving → below → Answers (.remnantRemove tag n) s { kind := kRemnantRemove, tag := tag, code := .state } s.part)
      ∧ (¬ moving → ¬ below → held → Answers (.remnantRemove tag n) s { kind := kRemnantRemove, tag := tag, code := .inUse } s.part)
      ∧ (∀ k level, ¬ moving → ¬ below → ¬ held → r.location = .slot k level →
        HeadsQuiet s.part (fun o => o.load.remnant? == some n) →
        HeadsQuiet s.part (fun o => o.source == .slot k || o.destination == .slot k) →
        Answers (.remnantRemove tag n) s { kind := kRemnantRemove, tag := tag, code := .ok }
          ((s.part.setSlot k { s.part.slot k with stack := (s.part.slot k).stack.dropLast }).setRemnants
            (s.part.rsu.remnants.filter (·.number != n))))
      ∧ (¬ moving → ¬ held → (∀ k level, r.location ≠ .slot k level) → HeadsQuiet s.part (fun o => o.load.remnant? == some n) →
        Answers (.remnantRemove tag n) s { kind := kRemnantRemove, tag := tag, code := .ok }
          (s.part.setRemnants (s.part.rsu.remnants.filter (·.number != n)))))

/-- REMNANT UNRESERVE (R151): NOT_FOUND, STATE, or the record FREE with its reservation tag absent and its restack list kept. -/
def Obligations.RemnantUnreserveFreesTheRecord : Prop :=
  ∀ (s : Machine.State) (tag n : Nat), Ready (.remnantUnreserve tag n) s.part →
    ((∀ r ∈ s.part.rsu.remnants, r.number ≠ n) →
      Answers (.remnantUnreserve tag n) s { kind := kRemnantUnreserve, tag := tag, code := .notFound } s.part)
    ∧ (∀ r, s.part.remnant n = some r → r.state ≠ .reserved →
      Answers (.remnantUnreserve tag n) s { kind := kRemnantUnreserve, tag := tag, code := .state } s.part)
    ∧ (∀ r, s.part.remnant n = some r → r.state = .reserved → (s.part.rsu.remnants.map Remnant.number).Nodup →
      HeadsQuiet s.part (fun o => o.load.remnant? == some n) →
      (∀ k level, r.location = .slot k level → HeadsQuiet s.part (fun o => o.source == .slot k || o.destination == .slot k)) →
      Answers (.remnantUnreserve tag n) s { kind := kRemnantUnreserve, tag := tag, code := .ok }
        (s.part.setRemnants (s.part.rsu.remnants.map (fun x =>
          if x.number = n then { x with state := .free, reservation := none } else x))))

/-- STORE (R153, R152, R125): one order of the stock from the remnant's bed to the slot chosen, behind the rack crane's other orders. -/
def Obligations.StorePlacesAnOrderToTheRack : Prop :=
  ∀ (s : Machine.State) (tag n : Nat) (r : Remnant) (b : Bed) (c : Crane) (k : SlotNo) (m : OrderNo), Ready (.store tag n) s.part →
    s.part.remnant n = some r → r.location = .bed b → r.state = .free → (s.part.bed b).owner = none → (s.part.bed b).claim = none →
    s.part.remnantInOrders n = false → s.part.rackCrane = some c → s.part.rsu.digReserve < s.part.freeRackPlaces →
    s.part.slotChoice r.width r.length [] [] = some k → s.part.order m = none → (∀ i : OrderNo, i < m → s.part.order i ≠ none) →
    s.part.orderQueue c ≠ [] → (s.part.orderQueue c).length < 16 →
    Answers (.store tag n) s { kind := kStore, tag := tag, code := .ok, body := .stored m k }
      ((s.part.setOrder m (some
        { crane := c, origin := .stock, source := .bed b, destination := .slot k, load := .plate ⟨.remnant, n⟩,
          requestTag := some tag, state := .queued, held := {}, waiting := false, sourceClaim := false, destClaim := false,
          prior := none, answered := false, cause := none })).setOrderQueue c (s.part.orderQueue c ++ [m]))

/-- REMNANT REQUEST (R154 to R158): NO_FIT when nothing fits; a winner that lies free above its place is reserved with the request's
tag, and the reply names it. -/
def Obligations.RemnantRequestReservesTheWinner : Prop :=
  ∀ (s : Machine.State) (tag grade thickness w l rotate deep reservation : Nat),
    Ready (.remnantRequest tag grade thickness w l rotate deep reservation) s.part →
    grade ≤ 15 → 30 ≤ thickness → thickness ≤ 1500 → 100 ≤ w → w ≤ 5000 → 100 ≤ l → l ≤ 24000 → rotate ≤ 1 → deep ≤ 1 →
    reservation ≤ 65535 →
    let q : FitRequest :=
      { grade := grade, thickness := thickness, width := w + 2 * s.part.marginFor thickness,
        length := l + 2 * s.part.marginFor thickness, rotate := rotate == 1, deep := deep == 1 }
    (s.part.bestFit q = none →
      Answers (.remnantRequest tag grade thickness w l rotate deep reservation) s
        { kind := kRemnantRequest, tag := tag, code := .noFit } s.part)
    ∧ (∀ f, s.part.bestFit q = some f → f.plan = [] → HeadsQuiet s.part (fun o => o.load.remnant? == some f.remnant.number) →
      (∀ r k level, s.part.remnant f.remnant.number = some r → r.location = .slot k level →
        HeadsQuiet s.part (fun o => o.source == .slot k || o.destination == .slot k)) →
      Answers (.remnantRequest tag grade thickness w l rotate deep reservation) s
        { kind := kRemnantRequest, tag := tag, code := .ok,
          body := .found f.remnant.number f.remnant.location f.score f.rotated [] }
        (s.part.setRemnants (s.part.rsu.remnants.map (fun r =>
          if r.number = f.remnant.number then { r with state := .reserved, reservation := some reservation, restack := [] } else r))))

/-- The choices of the stock. The slot choice (R152): of the slots that may take the piece the least filled, and of those the lowest
number. The fit (R155 to R157): which records fit and count, with which score, turned or not, and which slots take the remnants above
a buried one. The winner (R158): no other scores less, and none that scores the same stands before it in the table, which stands in
ascending order of the numbers (R139), so that it is the oldest. A number that a stack holds without a record is not RESERVED, counts in the
depth, and drops a candidate it stands above (log 52). -/
def Obligations.TheWinnerScoresLeastAndIsTheOldest : Prop :=
  (∀ (p : Machine.Part) (w l : Nat) (excluded chosen : List SlotNo),
    let count (k : SlotNo) : Nat := p.committed k + chosen.count k
    let mayTake (k : SlotNo) : Prop := (p.slot k).loaded = true ∧ k ∉ excluded ∧ count k < 4 ∧ (p.slot k).claim = none
      ∧ (∀ n ∈ (p.slot k).stack, ∀ r, p.remnant n = some r → r.state ≠ .reserved)
      ∧ ∃ mw ml, (p.slot k).maxima = some (mw, ml) ∧ ((w ≤ mw ∧ l ≤ ml) ∨ (w ≤ ml ∧ l ≤ mw))
    (∀ k, p.slotChoice w l excluded chosen = some k ↔
      mayTake k ∧ ∀ x, mayTake x → count k < count x ∨ (count k = count x ∧ k ≤ x))
    ∧ (p.slotChoice w l excluded chosen = none ↔ ∀ k, ¬ mayTake k))
  ∧ (∀ (p : Machine.Part) (q : FitRequest) (r : Remnant) (f : Fitting),
    p.fitting q r = some f ↔
      f.remnant = r ∧ r.state = .free ∧ r.grade = q.grade ∧ r.thickness = q.thickness ∧ p.remnantInOrders r.number = false
      ∧ ((f.rotated = false ∧ q.width ≤ r.width ∧ q.length ≤ r.length)
        ∨ (f.rotated = true ∧ ¬ (q.width ≤ r.width ∧ q.length ≤ r.length) ∧ q.rotate = true ∧ q.width ≤ r.length ∧ q.length ≤ r.width))
      ∧ f.score = min 4095 ((r.width * r.length - q.width * q.length) / 10000 + p.rsu.digPenalty * f.plan.length)
      ∧ ((∃ b, r.location = .bed b ∧ (p.bed b).owner = none ∧ (p.bed b).claim = none ∧ f.plan = [])
        ∨ ∃ own level, r.location = .slot own level
          ∧ f.plan.map Prod.fst = (p.slot own).stack.reverse.takeWhile (· != r.number)
          ∧ (f.plan = [] ∨ (q.deep = true ∧ p.rsu.digReserve + f.plan.length + p.freePlaces own ≤ p.freeRackPlaces
            ∧ ∀ before n k after, f.plan = before ++ (n, k) :: after →
                p.remnantInOrders n = false
                ∧ ∃ m, p.remnant n = some m ∧ m.state = .free
                  ∧ p.slotChoice m.width m.length [own] (before.map Prod.snd).reverse = some k))))
  ∧ (∀ (p : Machine.Part) (q : FitRequest) (f : Fitting), p.bestFit q = some f →
    ∃ before after, p.rsu.remnants.filterMap (p.fitting q) = before ++ f :: after
      ∧ (∀ x ∈ before, f.score < x.score) ∧ (∀ x ∈ after, f.score ≤ x.score))

/-! ## The loadable tables -/

/-- LOAD ENTRY of table BED (R2, R3): with loaded = yes the geometry, each installed crane PRESENT over the bed and an uninstalled one
ABSENT; with loaded = no no geometry and both ABSENT. Tag, flags and waiting list stay. -/
def Obligations.LoadBedSetsTheGeometry : Prop :=
  ∀ (s : Machine.State) (tag : Nat) (b : Bed) (xLo xHi yLo yHi ox oy : Int),
    (s.part.bed b).owner = none → (s.part.bed b).claim = none → (∀ g r, s.part.registration g = some r → r.bed ≠ b) →
    (Ready (.loadEntryBed tag b 1 xLo xHi yLo yHi ox oy) s.part → 0 ≤ xLo → xLo < xHi → xHi ≤ s.part.hmp.hallLength →
      0 ≤ yLo → yLo < yHi → yHi ≤ s.part.hmp.hallWidth → xLo ≤ ox → ox ≤ xHi → yLo ≤ oy → oy ≤ yHi →
      (∀ (x : Bed) (r : Rect), x ≠ b → (s.part.bed x).loaded = true → (s.part.bed x).rect = some r →
        r.xHi ≤ xLo ∨ xHi ≤ r.xLo ∨ r.yHi ≤ yLo ∨ yHi ≤ r.yLo) →
      Answers (.loadEntryBed tag b 1 xLo xHi yLo yHi ox oy) s { kind := kLoadEntry, tag := tag, code := .ok }
        (((s.part.setBed b
            { s.part.bed b with loaded := true, rect := some ⟨xLo, xHi, yLo, yHi⟩, origin := some ⟨ox, oy⟩ }).setPresence 0 b
          { state := if (s.part.crane 0).installed then .present else .absent, count := 0 }).setPresence 1 b
          { state := if (s.part.crane 1).installed then .present else .absent, count := 0 }))
    ∧ (Ready (.loadEntryBed tag b 0 xLo xHi yLo yHi ox oy) s.part → s.part.bedInJobs b = false →
      s.part.placeInOrders (.bed b) = false → ((s.part.bed b).waiting = [] ∨ s.part.bedClear b = true) →
      Answers (.loadEntryBed tag b 0 xLo xHi yLo yHi ox oy) s { kind := kLoadEntry, tag := tag, code := .ok }
        (((s.part.setBed b { s.part.bed b with loaded := false, rect := none, origin := none }).setPresence 0 b
          { state := .absent, count := 0 }).setPresence 1 b { state := .absent, count := 0 }))

/-- LOAD ENTRY of table GANTRY (R68, R98, R107) with the gantry OFF: the entry, the accumulator at 0, the notice mode handed on. -/
def Obligations.LoadGantrySetsTheParameters : Prop :=
  ∀ (s : Machine.State) (tag reach period retryLimit auto mode depth : Nat) (g : Gantry) (w : Rect) (notices : NoticeMode),
    Ready (.loadEntryGantry tag g 1 reach w.xLo w.xHi w.yLo w.yHi period retryLimit auto mode depth) s.part →
    (s.part.engine g).state = .off → 0 ≤ w.xLo → w.xLo ≤ w.xHi → w.xHi ≤ 3000000 → 0 ≤ w.yLo → w.yLo ≤ w.yHi → w.yHi ≤ 600000 →
    (period = 0 ∨ (500 ≤ period ∧ period ≤ 99999)) → retryLimit ≤ 7 → auto ≤ 1 → noticeMode? mode = some notices → 8 ≤ depth →
    depth ≤ 64 → s.part.queue g = [] →
    Answers (.loadEntryGantry tag g 1 reach w.xLo w.xHi w.yLo w.yHi period retryLimit auto mode depth) s
      { kind := kLoadEntry, tag := tag, code := .ok }
      (((s.part.setParams g
          { loaded := true, reach := reachOf reach, window := w, period := period, retryLimit := retryLimit,
            autoRelease := auto == 1, mode := notices, depth := depth }).setEngine g
          { s.part.engine g with accumulator := 0 }).setMarks g { s.part.marks g with mode := notices })

/-- LOAD ENTRY of table CRANE (R18, R19, R162), with no burn owner and nobody waiting on any bed, and no order on the crane: an
installed crane is LOST and PRESENT over every loaded bed, an uninstalled one ABSENT everywhere; the station entry is new. -/
def Obligations.LoadCraneInstallsTheCrane : Prop :=
  ∀ (s : Machine.State) (tag margin timeout rack : Nat) (c : Crane), margin ≤ 50000 → 50 ≤ timeout → timeout ≤ 2000 →
    (∀ b : Bed, (s.part.bed b).owner = none ∧ (s.part.bed b).waiting = []) → s.part.orderQueue c = [] → s.part.craneBusy c = false →
    (Ready (.loadEntryCrane tag c 1 margin timeout rack) s.part →
      (rack = 0 ∨ (rack = 1 ∧ ¬ ((s.part.crane (otherCrane c)).installed = true ∧ (s.part.crane (otherCrane c)).rack = true))) →
      Answers (.loadEntryCrane tag c 1 margin timeout rack) s { kind := kLoadEntry, tag := tag, code := .ok }
        ((((s.part.setStation (craneStation c) { misses := 0, lost := false, cause := none }).setCrane c
          { s.part.crane c with
            installed := true, margin := margin, timeout := timeout, rack := rack == 1, state := .lost, age := 0,
            duePoll := false }).withdraw (isDuePoll c)).putPresences c
          (fun b => { state := if (s.part.bed b).loaded then .present else .absent, count := 0 })))
    ∧ (Ready (.loadEntryCrane tag c 0 margin timeout 0) s.part →
      Answers (.loadEntryCrane tag c 0 margin timeout 0) s { kind := kLoadEntry, tag := tag, code := .ok }
        ((((s.part.setStation (craneStation c) { misses := 0, lost := false, cause := none }).setCrane c
          { installed := false, margin := margin, timeout := timeout, rack := false, state := .uninstalled, last := none, age := 0,
            duePoll := false }).withdraw (isDuePoll c)).putPresences c (fun _ => { state := .absent, count := 0 })))

/-- LOAD ENTRY of tables SLOT, PASS, BAND and CONTROLLER (R141, R173, R14, R12): the entry, and nothing else. -/
def Obligations.LoadsOfTheOtherTables : Prop :=
  (∀ (s : Machine.State) (tag maxWidth maxLength : Nat) (x y : Int) (k : SlotNo), Ready (.loadEntrySlot tag k 1 x y maxWidth maxLength) s.part →
      0 ≤ x → x ≤ s.part.hmp.hallLength → 0 ≤ y → y ≤ s.part.hmp.hallWidth → 1 ≤ maxWidth → maxWidth ≤ 24000 → 1 ≤ maxLength →
      maxLength ≤ 24000 → (s.part.slot k).claim = none → (s.part.slot k).stack = [] →
      HeadsQuiet s.part (fun o => o.source == .slot k || o.destination == .slot k) →
      Answers (.loadEntrySlot tag k 1 x y maxWidth maxLength) s { kind := kLoadEntry, tag := tag, code := .ok }
        (s.part.setSlot k
          { s.part.slot k with loaded := true, position := some ⟨x, y⟩, maxima := some (maxWidth, maxLength) }))
  ∧ (∀ (s : Machine.State) (tag d p m io : Nat) (x : Station) (a1 a2 a3 a4 : PassAction), Ready (.loadEntryPass tag x d p m io) s.part →
      passAction? d = some a1 → passAction? p = some a2 → passAction? m = some a3 → passAction? io = some a4 →
      Answers (.loadEntryPass tag x d p m io) s { kind := kLoadEntry, tag := tag, code := .ok }
        (s.part.setPass x { diagnostic := a1, parameter := a2, motion := a3, io := a4 }))
  ∧ (∀ (s : Machine.State) (tag bound margin : Nat) (i : Fin 8), Ready (.loadEntryBand tag i 1 bound margin) s.part → 30 ≤ bound →
      bound ≤ 1500 → margin ≤ 50 → (∀ j : Fin 8, j.val + 1 = i.val → (s.part.band j).loaded = true ∧ (s.part.band j).bound < bound) →
      (∀ j : Fin 8, j.val = i.val + 1 → (s.part.band j).loaded = true → bound < (s.part.band j).bound) →
      Answers (.loadEntryBand tag i 1 bound margin) s { kind := kLoadEntry, tag := tag, code := .ok }
        { s.part with
          hmp := { s.part.hmp with bands := put s.part.hmp.bands i { loaded := true, bound := bound, margin := margin } } })
  ∧ (∀ (s : Machine.State) (tag window penalty reserve size : Nat) (length width : Int),
      Ready (.loadEntryController tag 0 window length width penalty reserve size) s.part → 1 ≤ window → window ≤ 20 →
      s.part.hmp.hallLength ≤ length → 1000 ≤ length → length ≤ 3000000 → s.part.hmp.hallWidth ≤ width → 1000 ≤ width →
      width ≤ 600000 → penalty ≤ 1023 → reserve ≤ 8 → 100 ≤ size → size ≤ 2000 →
      Answers (.loadEntryController tag 0 window length width penalty reserve size) s { kind := kLoadEntry, tag := tag, code := .ok }
        { s.part with
          hmp := { s.part.hmp with hallLength := length, hallWidth := width },
          rsu := { s.part.rsu with digPenalty := penalty, digReserve := reserve, minSize := size },
          flp := { s.part.flp with answerWindow := window } })

/-! ## Reading -/

/-- READ ENTRY of the fourteen tables (R183): the entries of the index list that fit a reply, read at the moment the request is
taken; nothing changes. Which entries fit is the model's reading: the sizes of the fields (log 9), the counts before lists and the sizes
of absent fields (log 10), and the filling of the reply in list order (log 23). -/
def Obligations.ReadEntryReadsTheTables : Prop :=
  ∀ (s : Machine.State) (tag first count step : Nat), 1 ≤ count → count ≤ 8 →
    let answers (c : Instr) (range : Nat) (entry : Nat → Option Entry) : Prop :=
      ∀ l, Ready c s.part → first < range → indexList range first count step = some l →
        Answers c s { kind := kReadEntry, tag := tag, code := .ok, body := .entries none (clipEntries 238 (l.filterMap entry)) } s.part
    answers (.readEntryBed tag first count step) 8 (entryAt s.part.bedEntry)
    ∧ answers (.readEntryGantry tag first count step) 4 (entryAt s.part.gantryEntry)
    ∧ answers (.readEntryCrane tag first count step) 2 (entryAt s.part.craneEntry)
    ∧ answers (.readEntrySlot tag first count step) 24 (entryAt s.part.slotEntry)
    ∧ answers (.readEntryPass tag first count step) 6 (entryAt s.part.passEntry)
    ∧ answers (.readEntryBand tag first count step) 8 (entryAt s.part.bandEntry)
    ∧ answers (.readEntryController tag first count step) 1 (entryAt s.part.controllerEntry)
    ∧ answers (.readEntryPresence tag first count step) 16 (entryAt s.part.presenceEntry)
    ∧ answers (.readEntryRegistration tag first count step) 4 (entryAt s.part.registrationEntry)
    ∧ answers (.readEntryJob tag first count step) 64 (entryAt s.part.jobEntry)
    ∧ answers (.readEntryMark tag first count step) 4 (entryAt s.part.markEntry)
    ∧ answers (.readEntryOrder tag first count step) 32 (entryAt s.part.orderEntry)
    ∧ answers (.readEntryStation tag first count step) 6 (entryAt s.part.stationEntry)
    ∧ (∀ l, Ready (.readEntryRemnant tag first count step) s.part → first < 128 → indexList 128 first count step = some l →
        Answers (.readEntryRemnant tag first count step) s
          { kind := kReadEntry, tag := tag, code := .ok,
            body := .entries (some (s.part.rsu.remnants.length, s.part.rsu.sequence)) (clipEntries 233 (l.filterMap s.part.remnantEntry)) }
          s.part)

/-- READ STATUS and CLEAR FLAGS (R184, R185): the status of the whole part at one moment, with nothing changed; NOTICE_LOST and the
four MARK_UNDERFLOW flags clear, with nothing else changed. And the requests the Office Port itself refuses (R178). -/
def Obligations.StatusFlagsAndUnknownRequests : Prop :=
  (∀ (s : Machine.State) (tag : Nat), Ready (.readStatus tag) s.part →
    Answers (.readStatus tag) s
      { kind := kReadStatus, tag := tag, code := .ok,
        body := .status
          { gantries := allGantries.map (fun g =>
              { state := (s.part.engine g).state, held := s.part.reportedHeld g, queueLength := (s.part.queue g).length,
                backlog := (s.part.engine g).backlog, underflow := (s.part.marks g).underflow }),
            cranes := [(s.part.crane 0).state, (s.part.crane 1).state],
            freePages := s.part.jst.pool.length,
            freeJobs := (allJobs.filter (fun j => (s.part.job j).state == .free)).length,
            completionHead := s.part.jst.completions.head?,
            freeRackPlaces := s.part.freeRackPlaces,
            noticeLost := s.part.ofp.noticeLost } }
      s.part)
  ∧ (∀ (s : Machine.State) (tag : Nat), Ready (.clearFlags tag) s.part →
    Answers (.clearFlags tag) s { kind := kClearFlags, tag := tag, code := .ok }
      { s.part with
        ofp := { s.part.ofp with noticeLost := false }, mks := s.part.mks.map (fun m => { m with underflow := false }) })
  ∧ (∀ (s : Machine.State) (tag kind : Nat), Ready (.unknownRequest tag kind .badRequest) s.part →
    Answers (.unknownRequest tag kind .badRequest) s { kind := kind, tag := tag, code := .badRequest } s.part)
  ∧ (∀ (s : Machine.State) (tag kind : Nat), Ready (.unknownRequest tag kind .badTable) s.part →
    Answers (.unknownRequest tag kind .badTable) s { kind := kind, tag := tag, code := .badTable } s.part)

/-! ## Resets -/

/-- CONTROLLER RESET with no passthrough open (R186 and the rules of the blocks: R16, R33, R53, R54, R96, R119, R138, R142, R161, R168,
R169, R175): what the warm reset leaves, block by block. A silence still due is kept (log 29); a RESERVED remnant on a hook is FREE with
location UNKNOWN (log 30); the ORDER CANCEL of C0 is requested before that of C1 (log 20). The number of a remnant in transit leaves every
stack that holds it, at whatever level (log 46, log 49). -/
def Obligations.WarmResetLeavesTheBlocksAsTheirRulesSay : Prop :=
  ∀ (s : Machine.State) (tag : Nat), Ready (.controllerReset tag) s.part → s.part.flp.passOpen = false →
    ∃ t, exec (.controllerReset tag) s = .next t
      ∧ t.part.ofp = OfficePort.answeredWith { s.part.ofp with notices := [], noticeLost := false, sequence := 0 }
          { kind := kControllerReset, tag := tag, code := .ok }
      ∧ (∀ b : Bed, (t.part.bed b).loaded = (s.part.bed b).loaded ∧ (t.part.bed b).rect = (s.part.bed b).rect
          ∧ (t.part.bed b).origin = (s.part.bed b).origin ∧ (t.part.bed b).plate = (s.part.bed b).plate
          ∧ (t.part.bed b).skeleton = (s.part.bed b).skeleton ∧ (t.part.bed b).owner = none ∧ (t.part.bed b).claim = none
          ∧ (t.part.bed b).waiting = [] ∧ (t.part.bed b).partlyCut = ((s.part.bed b).partlyCut || s.part.cutBeds.contains b))
      ∧ (∀ c : Crane, (s.part.crane c).installed = true →
          t.part.crane c = { s.part.crane c with state := .lost, age := 0, duePoll := false }
          ∧ ∀ b, t.part.presence c b = { state := if (s.part.bed b).loaded then .present else .absent, count := 0 })
      ∧ (∀ c : Crane, (s.part.crane c).installed = false →
          t.part.crane c = { s.part.crane c with duePoll := false } ∧ ∀ b, t.part.presence c b = { state := .absent, count := 0 })
      ∧ t.part.hmp.bands = s.part.hmp.bands ∧ t.part.hmp.hallLength = s.part.hmp.hallLength
      ∧ t.part.hmp.hallWidth = s.part.hmp.hallWidth
      ∧ t.part.jst.mem = s.part.jst.mem ∧ t.part.jst.pool = List.range 1024 ∧ t.part.jst.completions = []
      ∧ (∀ j : JobNo, t.part.job j = { state := .free, gantry := none, pages := [], inCompletion := false })
      ∧ (∀ g : Gantry, t.part.queue g = [] ∧ t.part.engine g = {} ∧ t.part.registration g = none
          ∧ t.part.params g = s.part.params g ∧ (t.part.marks g).marks = [] ∧ (t.part.marks g).sendList = []
          ∧ (t.part.marks g).unresolved = [] ∧ (t.part.marks g).phase = .none ∧ (t.part.marks g).underflow = false
          ∧ (t.part.marks g).slots = Vector.replicate 4 none ∧ (t.part.marks g).mode = (s.part.marks g).mode)
      ∧ (∀ n : OrderNo, t.part.order n = none) ∧ (∀ c : Crane, t.part.orderQueue c = [])
      ∧ t.part.rsu.sequence = s.part.rsu.sequence ∧ t.part.rsu.digPenalty = s.part.rsu.digPenalty
      ∧ t.part.rsu.digReserve = s.part.rsu.digReserve ∧ t.part.rsu.minSize = s.part.rsu.minSize
      ∧ t.part.rsu.remnants = s.part.rsu.remnants.map (fun r =>
          { r with
            state := .free, restack := [], reservation := if r.state = .free then r.reservation else none,
            location := match r.state, r.location with
              | .inTransit, _ => .unknown
              | _, .hook _ => .unknown
              | _, l => l })
      ∧ (∀ k : SlotNo, t.part.slot k =
          { s.part.slot k with
            claim := none,
            stack := (s.part.slot k).stack.filter (fun n =>
              !s.part.rsu.remnants.any (fun r => r.number == n && r.state == .inTransit)) })
      ∧ t.part.flp.inFlight = none ∧ t.part.flp.passTable = s.part.flp.passTable
      ∧ t.part.flp.answerWindow = s.part.flp.answerWindow ∧ t.part.flp.passHeld = s.part.flp.passHeld
      ∧ t.part.flp.silence = s.part.flp.silence ∧ t.part.flp.lastCommand = 3 ∧ t.part.flp.lastMark = 3
      ∧ t.part.flp.turn = .crane ∧ t.part.flp.nextCrane = 0 ∧ t.part.flp.nextGantry = 0
      ∧ (∀ x : Station, t.part.station x = { misses := 0, lost := false, cause := none })
      ∧ t.part.flp.pending
          = (allGantries.filter (fun g => (s.part.engine g).state.mayBurn)).map (fun g => ⟨gantryStation g, .arcStop .warmReset⟩)
            ++ s.part.ordersToCancel.map (fun x => ⟨craneStation x.1, .orderCancel x.2⟩)

/-- COLD RESET and RESET INPUT RELEASE (R187): every block at its cold reset values, the input held from the one to the other; a release
without a held input changes nothing. And the values a cold reset leaves (R1, R12, R14, R17, R20, R35, R36, R54, R65, R68, R98, R107, R121, R122, R139, R140, R142, R162, R168,
R169, R173, R187); the controller entry's and the first band's values are those of their rules. -/
def Obligations.ColdResetLeavesTheResetValues : Prop :=
  let p := Machine.State.reset.part
  (∀ (s : Machine.State) (byInput : Bool),
    Leaves (.coldReset byInput) s { p with ofp := { p.ofp with resetHeld := byInput } }
    ∧ (s.part.ofp.resetHeld = true → Leaves .resetInputRelease s p)
    ∧ (s.part.ofp.resetHeld = false → Leaves .resetInputRelease s s.part))
  ∧ Machine.State.reset.pending = []
  ∧ (∀ b : Bed, p.bed b = { loaded := false, rect := none, origin := none, plate := none, skeleton := false, partlyCut := false,
                            owner := none, claim := none, waiting := [] })
  ∧ (∀ c : Crane, p.crane c = { installed := false, margin := 0, timeout := 500, rack := false, state := .uninstalled, last := none,
                                age := 0, duePoll := false })
  ∧ (∀ (c : Crane) (b : Bed), p.presence c b = { state := .absent, count := 0 })
  ∧ p.hmp.hallLength = 3000000 ∧ p.hmp.hallWidth = 600000 ∧ p.band 0 = { loaded := true, bound := 1500, margin := 0 }
  ∧ (∀ i : Fin 8, i ≠ 0 → (p.band i).loaded = false)
  ∧ p.jst.pool = List.range 1024 ∧ (∀ j : JobNo, p.job j = { state := .free, gantry := none, pages := [], inCompletion := false })
  ∧ (∀ g : Gantry, (p.engine g).state = .off ∧ (p.engine g).job = none ∧ (p.engine g).accumulator = 0 ∧ (p.engine g).backlog = 3
      ∧ p.registration g = none ∧ (p.params g).loaded = false ∧ p.queue g = [] ∧ (p.marks g).marks = []
      ∧ (p.marks g).slots = Vector.replicate 4 none ∧ (p.marks g).phase = .none ∧ (p.marks g).underflow = false)
  ∧ p.jst.completions = [] ∧ (∀ n : OrderNo, p.order n = none) ∧ (∀ c : Crane, p.orderQueue c = [])
  ∧ p.rsu.remnants = [] ∧ p.rsu.sequence = 0 ∧ p.rsu.digPenalty = 200 ∧ p.rsu.digReserve = 2 ∧ p.rsu.minSize = 300
  ∧ (∀ k : SlotNo, p.slot k = { loaded := false, position := none, maxima := none, stack := [], claim := none })
  ∧ (∀ x : Station, p.station x = { misses := 0, lost := false, cause := none }
      ∧ p.pass x = { diagnostic := .forward, parameter := .block, motion := .block, io := .block })
  ∧ p.flp.inFlight = none ∧ p.flp.pending = [] ∧ p.flp.lastCommand = 3 ∧ p.flp.lastMark = 3 ∧ p.flp.turn = .crane
  ∧ p.flp.nextCrane = 0 ∧ p.flp.nextGantry = 0 ∧ p.flp.passHeld = none ∧ p.flp.answerWindow = 4
  ∧ p.ofp.assembler = .hunting ∧ p.ofp.waiting = none ∧ p.ofp.replies = [] ∧ p.ofp.sending = none ∧ p.ofp.notices = []
  ∧ p.ofp.noticeLost = false ∧ p.ofp.sequence = 0

/-! ## The office line -/

/-- A good office frame (R176, R178, R191; the layouts of 12.1 as decodeOffice reads them, log 9; that the waiting place holds the request
a frame spells is log 3): its bytes, arriving while the assembler hunts and the waiting place is
empty, leave the request they spell in the waiting place, and change nothing else. A frame that finds the place taken is dropped. -/
def Obligations.AGoodOfficeFrameTakesTheWaitingPlace : Prop :=
  ∀ (s : Machine.State) (f : OfficeFrame), Live s.part → f.kind < 256 → f.tag < 65536 → f.destination < 256 → f.payload.length ≤ 240 →
    s.part.ofp.assembler = .hunting →
    (s.part.ofp.waiting = none →
      Leaves (.officeFrameReceived (officeBytes f)) s { s.part with ofp := { s.part.ofp with waiting := some (decodeOffice f) } })
    ∧ (∀ c, s.part.ofp.waiting = some c → Leaves (.officeFrameReceived (officeBytes f)) s s.part)

/-- OFFICE BYTE GAP and OFFICE LENGTH DROP (R176, R191): a frame in progress is dropped at a gap, and the byte that ends the gap is hunted;
a length byte outside 4 to 244 drops the frame, and the bytes after it are hunted through. -/
def Obligations.BrokenFramesAreDropped : Prop :=
  (∀ (s : Machine.State) (bs : List Byte) (b : Byte), Live s.part → s.part.ofp.assembler = .collecting bs →
    Leaves (.officeByteGap [] b) s
      { s.part with ofp := { s.part.ofp with assembler := if b = officeStart then .collecting [] else .hunting } })
  ∧ (∀ (s : Machine.State) (b : Byte) (rest : List Byte), Live s.part → s.part.ofp.assembler = .hunting →
    (b.toNat < 4 ∨ 244 < b.toNat) → (∀ x ∈ rest, x ≠ officeStart) →
    Leaves (.officeLengthDrop (officeStart :: b :: rest)) s s.part)

/-- OFFICE TRANSMIT DONE (R180, R174): the oldest reply is begun, or with no reply the oldest notice, or the transmitter is free; a
passthrough is held until the sending of its reply begins. -/
def Obligations.TheTransmitterTakesRepliesFirst : Prop :=
  ∀ (s : Machine.State) (f : OutFrame), s.part.ofp.resetHeld = false → s.part.agenda = [] → s.part.ofp.sending = some f →
    (∀ r rest, s.part.ofp.replies = r :: rest →
      Leaves .officeTransmitDone s
        { s.part with
          ofp := { s.part.ofp with sending := some (.reply r), replies := rest },
          flp := { s.part.flp with passHeld := if r.kept then none else s.part.flp.passHeld } })
    ∧ (∀ q n rest, s.part.ofp.replies = [] → s.part.ofp.notices = (q, n) :: rest →
      Leaves .officeTransmitDone s { s.part with ofp := { s.part.ofp with sending := some (.notice q n), notices := rest } })
    ∧ (s.part.ofp.replies = [] → s.part.ofp.notices = [] →
      Leaves .officeTransmitDone s { s.part with ofp := { s.part.ofp with sending := none } })

/-! ## The floor line -/

/-- PASSTHROUGH and PASSTHROUGH ANSWER (R174, R180, R191): a frame the pass table lets through, with none held, is held and pending, and
gives no reply yet; with one held it is BUSY, and refused by the table it is BLOCKED; the station's answer is handed to the Office
Port as the reply in the kept place. -/
def Obligations.PassthroughIsHeldUntilItsReply : Prop :=
  (∀ (s : Machine.State) (tag destination : Nat) (cls : Byte) (body : List Byte) (x : Station) (c : PassClass),
    Ready (.passthrough tag destination 0x60 (cls :: body)) s.part → body.length ≤ 238 → addressStation? destination = some x →
    passClass? cls.toNat = some c →
    (s.part.flp.passHeld = none → s.part.passBlocked x c = false →
      Leaves (.passthrough tag destination 0x60 (cls :: body)) s
        { s.part with
          flp := { s.part.flp with passHeld := some tag, pending := s.part.flp.pending ++ [⟨x, .pass c body⟩] },
          ofp := { s.part.ofp with waiting := none } })
    ∧ (s.part.flp.passHeld ≠ none →
      Answers (.passthrough tag destination 0x60 (cls :: body)) s { kind := 0x60, tag := tag, code := .busy } s.part)
    ∧ (s.part.flp.passHeld = none → s.part.passBlocked x c = true →
      Answers (.passthrough tag destination 0x60 (cls :: body)) s { kind := 0x60, tag := tag, code := .blocked } s.part))
  ∧ (∀ (s : Machine.State) (kind tag : Nat) (payload : List Byte) (t : Transaction) (c : PassClass) (body : List Byte),
    Live s.part → s.part.flp.inFlight = some t → t.request.frame = .pass c body → s.part.flp.passHeld = some tag → payload.length ≤ 238 →
    let r : Reply := { kind := 0x60, tag := tag, code := .ok, body := .answer kind payload, kept := true }
    (s.part.ofp.sending = none →
      Leaves (.passthroughAnswer (stationAddress t.request.station) kind payload) s
        { s.part with
          flp := { s.part.flp with inFlight := none, passHeld := none }, ofp := { s.part.ofp with sending := some (.reply r) } })
    ∧ (s.part.ofp.sending ≠ none →
      Leaves (.passthroughAnswer (stationAddress t.request.station) kind payload) s
        { s.part with
          flp := { s.part.flp with inFlight := none }, ofp := { s.part.ofp with replies := s.part.ofp.replies ++ [r] } }))

/-- The arbiter's choice (R167, R168): a pending frame of the highest class that has one, the oldest of its class where no gantry's turn
decides; what is not granted stays pending in its order. -/
def Obligations.TheArbiterGrantsTheHighestClass : Prop :=
  ∀ (f f' : FloorPort) (r : FloorRequest), f.pick = some (r, f') →
    ∃ before after, f.pending = before ++ r :: after ∧ f'.pending = before ++ after
      ∧ (∀ x ∈ f.pending, r.frame.cls ≤ x.frame.cls)
      ∧ ((r.frame.cls ≠ 4 ∧ r.frame.cls ≠ 5) → ∀ x ∈ before, x.frame.cls ≠ r.frame.cls)
      ∧ (∀ x ∈ before, x.frame.cls = r.frame.cls → x.station ≠ r.station)

/-- FLOOR GRANT (R163, R167, R169): on a free and silent line the arbiter's frame is sent with the answer window in force; with nothing
pending the rotation polls the next crane on a crane turn. While a transaction is in flight, or the silence after a miss lasts,
nothing is sent. -/
def Obligations.FloorGrantSendsOneFrame : Prop :=
  (∀ (s : Machine.State) (r : FloorRequest) (f : FloorPort), Live s.part → s.part.flp.inFlight = none → s.part.flp.silence = false →
    s.part.flp.pick = some (r, f) → r.frame.cls ≠ 6 →
    Leaves .floorGrant s { s.part with flp := { f with inFlight := some ⟨r, s.part.flp.answerWindow⟩ } })
  ∧ (∀ s : Machine.State, Live s.part → s.part.flp.inFlight = none → s.part.flp.silence = false → s.part.flp.pending = [] →
    s.part.flp.turn = .crane → (s.part.crane s.part.flp.nextCrane).installed = true →
    Leaves .floorGrant s
      { s.part with
        flp := { s.part.flp with
          inFlight := some ⟨⟨craneStation s.part.flp.nextCrane, .poll false⟩, s.part.flp.answerWindow⟩,
          turn := .gantry, nextCrane := otherCrane s.part.flp.nextCrane } })
  ∧ (∀ s : Machine.State, Live s.part → (s.part.flp.inFlight ≠ none ∨ s.part.flp.silence = true) → Leaves .floorGrant s s.part)

/-- ANSWER WINDOW EXPIRY, BAD ANSWER and MISS SILENCE END (R163, R164): a miss of a command frame of a station that is not LOST, before
its third, keeps the frame at the head, unchanged, counts the miss with its cause, and silences the line for a window; then the
line is free again. A frame is kept although its gantry has been disabled meanwhile (log 39). Bytes that spell no answer are a bad answer
whatever their first byte (log 40), and at once when they have not ended (log 41). -/
def Obligations.AMissKeepsTheFrame : Prop :=
  (∀ (s : Machine.State) (c : Instr) (t : Transaction) (cause : MissCause), Live s.part → s.part.flp.inFlight = some t →
    ((c = .answerWindowExpiry false ∧ cause = .silent) ∨ (c = .answerWindowExpiry true ∧ cause = .badAnswer)
      ∨ (∃ bytes, c = .badAnswer bytes ∧ parseFloorFrame bytes = none ∧ cause = .badAnswer)) →
    t.request.frame.cls ≠ 1 → t.request.frame.cls ≠ 2 → t.request.frame.cls ≠ 6 → (s.part.station t.request.station).lost = false →
    (s.part.station t.request.station).misses < 2 →
    Leaves c s
      { s.part.setStation t.request.station
          { misses := (s.part.station t.request.station).misses + 1, lost := false, cause := some cause } with
        flp := { (s.part.setStation t.request.station
            { misses := (s.part.station t.request.station).misses + 1, lost := false, cause := some cause }).flp with
          inFlight := none, silence := true, pending := t.request :: s.part.flp.pending } })
  ∧ (∀ s : Machine.State, Live s.part → Leaves .missSilenceEnd s { s.part with flp := { s.part.flp with silence := false } })

/-- The third miss in a row (R165), of a poll of a crane that is not TRACKING: the station is LOST with its cause, every frame pending for
it but a passthrough is withdrawn, and STATION_LOST names the poll. Of a poll of a gantry that is IDLE without a job or a bed request
(R92, R95, R110): besides, the slots of the withdrawn texts are free, the engine is in FAULT, and GANTRY_STATE with cause LINK comes
before STATION_LOST. A text missed and kept counts among the withdrawn ones (log 7). -/
def Obligations.TheThirdMissLosesTheStation : Prop :=
  (∀ (s : Machine.State) (c : Crane) (w : Nat) (begun : Bool), Live s.part →
    s.part.flp.inFlight = some ⟨⟨craneStation c, .poll false⟩, w⟩ → (s.part.crane c).installed = true →
    (s.part.crane c).state ≠ .tracking → (s.part.station (craneStation c)).lost = false → (s.part.station (craneStation c)).misses = 2 →
    let cause : MissCause := if begun then .badAnswer else .silent
    let q := s.part.setStation (craneStation c) { misses := 3, lost := true, cause := some cause }
    Leaves (.answerWindowExpiry begun) s
      { q with
        flp := { q.flp with
          inFlight := none, silence := true,
          pending := s.part.flp.pending.filter (fun r => !(r.station = craneStation c && r.frame.cls != 6)) },
        ofp := s.part.ofp.given (.stationLost (stationAddress (craneStation c)) (some cause) 0x01) })
  ∧ (∀ (s : Machine.State) (g : Gantry) (w : Nat) (begun : Bool), Live s.part →
    s.part.flp.inFlight = some ⟨⟨gantryStation g, .poll false⟩, w⟩ → (s.part.engine g).state = .idle → (s.part.engine g).job = none →
    (s.part.engine g).bedRequest = .none → (s.part.station (gantryStation g)).lost = false →
    (s.part.station (gantryStation g)).misses = 2 →
    let cause : MissCause := if begun then .badAnswer else .silent
    ∃ slots : Vector (Option MarkSlot) 4,
      (∀ x : Fin 4, (∃ q text, ⟨gantryStation g, .markText x q text⟩ ∈ s.part.flp.pending) → look slots x = none)
      ∧ (∀ x : Fin 4, (∀ q text, ⟨gantryStation g, .markText x q text⟩ ∉ s.part.flp.pending) →
          look slots x = look (s.part.marks g).slots x)
      ∧ let q := ((s.part.setStation (gantryStation g) { misses := 3, lost := true, cause := some cause }).setEngine g
            { s.part.engine g with state := .fault, idleReference := false, refReturn := none }).setMarks g
            { s.part.marks g with slots := slots }
        Leaves (.answerWindowExpiry begun) s
          { q with
            flp := { q.flp with
              inFlight := none, silence := true,
              pending := s.part.flp.pending.filter (fun r => !(r.station = gantryStation g && r.frame.cls != 6)) },
            ofp := (s.part.ofp.given (.gantryState g .fault { stored := (s.part.engine g).held, bedClaimed := false } none
                (s.part.engine g).counters.lastPart .link none none)).notify
              (.stationLost (stationAddress (gantryStation g)) (some cause) 0x01) })

/-- CRANE POLL ANSWER of a TRACKING crane, in a hall where no gantry owns a bed and nobody waits (R21 to R24, R26, R164, R170): the report
is stored, as clamped, with age 0 and the due poll withdrawn, each presence record of a loaded bed moves by the table of R23, and
those of an unloaded bed and of the other crane stay. And of a LOST crane without an order (R30, R31), whoever owns a bed or waits for
one: the crane is TRACKING with age 0, PRESENT over each loaded bed it is inside and CLEARING with count 1 over each other one, and
CRANE_FOUND is given. -/
def Obligations.APositionMovesThePresences : Prop :=
  (∀ (s : Machine.State) (c : Crane) (w : Nat) (due : Bool) (x y : Int) (hookLow loaded : Bool), Live s.part →
    s.part.flp.inFlight = some ⟨⟨craneStation c, .poll due⟩, w⟩ → (s.part.crane c).state = .tracking →
    (s.part.station (craneStation c)).lost = false →
    (∀ b : Bed, (s.part.bed b).owner = none ∧ (s.part.bed b).waiting = []) → s.part.orderQueue c = [] →
    let px := clampTo s.part.hmp.hallLength x
    let py := clampTo s.part.hmp.hallWidth y
    ∃ t, exec (.cranePollAnswer (stationAddress (craneStation c)) x y hookLow loaded none) s = .next t
      ∧ t.part.crane c = { s.part.crane c with last := some ⟨px, py, hookLow, loaded⟩, age := 0, duePoll := false }
      ∧ (∀ (b : Bed) (r : Rect), (s.part.bed b).loaded = true → (s.part.bed b).rect = some r →
          let inside := r.xLo - (s.part.crane c).margin ≤ px ∧ px ≤ r.xHi + (s.part.crane c).margin
            ∧ r.yLo - (s.part.crane c).margin ≤ py ∧ py ≤ r.yHi + (s.part.crane c).margin
          let old := s.part.presence c b
          (inside → t.part.presence c b = if old.state = .present then old else { state := .present, count := 0 })
          ∧ (¬ inside → old.state = .absent → t.part.presence c b = old)
          ∧ (¬ inside → old.state = .present → t.part.presence c b = { state := .clearing, count := 1 })
          ∧ (¬ inside → old.state = .clearing → old.count ≤ 14 →
              t.part.presence c b = { state := .clearing, count := old.count + 1 })
          ∧ (¬ inside → old.state = .clearing → 15 ≤ old.count → t.part.presence c b = { state := .absent, count := 0 }))
      ∧ (∀ b : Bed, (s.part.bed b).loaded = false → t.part.presence c b = s.part.presence c b)
      ∧ (∀ b : Bed, t.part.presence (otherCrane c) b = s.part.presence (otherCrane c) b ∧ t.part.bed b = s.part.bed b)
      ∧ t.part.crane (otherCrane c) = s.part.crane (otherCrane c)
      ∧ t.part.station (craneStation c) = { s.part.station (craneStation c) with misses := 0 }
      ∧ t.part.flp.inFlight = none ∧ t.part.flp.pending = s.part.flp.pending.filter (fun r => !isDuePoll c r)
      ∧ t.part.jst = s.part.jst ∧ t.part.bds = s.part.bds ∧ t.part.mks = s.part.mks ∧ t.part.cou = s.part.cou ∧ t.part.rsu = s.part.rsu
      ∧ t.part.ofp = s.part.ofp)
  ∧ (∀ (s : Machine.State) (c : Crane) (w : Nat) (due : Bool) (x y : Int) (hookLow loaded : Bool), Live s.part →
    s.part.flp.inFlight = some ⟨⟨craneStation c, .poll due⟩, w⟩ → (s.part.crane c).state = .lost →
    (s.part.station (craneStation c)).lost = false → s.part.orderQueue c = [] →
    let report : Report := ⟨clampTo s.part.hmp.hallLength x, clampTo s.part.hmp.hallWidth y, hookLow, loaded⟩
    ∃ t, exec (.cranePollAnswer (stationAddress (craneStation c)) x y hookLow loaded none) s = .next t
      ∧ t.part.crane c = { s.part.crane c with last := some report, age := 0, state := .tracking }
      ∧ (∀ (b : Bed) (r : Rect), (s.part.bed b).loaded = true → (s.part.bed b).rect = some r →
          t.part.presence c b
            = if r.xLo - (s.part.crane c).margin ≤ report.x ∧ report.x ≤ r.xHi + (s.part.crane c).margin
                ∧ r.yLo - (s.part.crane c).margin ≤ report.y ∧ report.y ≤ r.yHi + (s.part.crane c).margin
              then { state := .present, count := 0 } else { state := .clearing, count := 1 })
      ∧ (∀ b : Bed, (s.part.bed b).loaded = false → t.part.presence c b = s.part.presence c b)
      ∧ (∀ b : Bed, t.part.presence (otherCrane c) b = s.part.presence (otherCrane c) b ∧ t.part.bed b = s.part.bed b)
      ∧ t.part.crane (otherCrane c) = s.part.crane (otherCrane c)
      ∧ t.part.flp = (s.part.answerTaken (craneStation c)).flp ∧ t.part.ofp = s.part.ofp.given (.craneFound c report)
      ∧ t.part.jst = s.part.jst ∧ t.part.bds = s.part.bds ∧ t.part.mks = s.part.mks ∧ t.part.cou = s.part.cou
      ∧ t.part.rsu = s.part.rsu)

/-- A presence is ABSENT after sixteen reports in a row outside the bed, and after no fewer (R23). The sixteenth, of the one crane that was
over a bed whose owner's cut is STOPPED with its stop point known, clears the bed (R26, R90): the owner gets a clearance, the stop
record is carried in a RESUME frame, and the engine is in CUT behind it. The record after it is a PIERCE here, so that nothing more is
sent. -/
def Obligations.SixteenReportsOutsideEndAPresence : Prop :=
  (∀ count k : Nat, (Nat.repeat (fun x => Presence.move x false) k { state := .present, count := count }).state = .absent ↔ 16 ≤ k)
  ∧ (∀ (s : Machine.State) (c : Crane) (g : Gantry) (b : Bed) (j : JobNo) (rect : Rect) (point : Point)
      (w i fraction u v feed len u' v' current : Nat) (due : Bool) (x y : Int) (hookLow loaded : Bool), Live s.part →
    s.part.flp.inFlight = some ⟨⟨craneStation c, .poll due⟩, w⟩ → (s.part.crane c).state = .tracking →
    (s.part.station (craneStation c)).lost = false → s.part.orderQueue c = [] →
    (s.part.bed b).loaded = true → (s.part.bed b).rect = some rect → (s.part.bed b).owner = some g →
    (∀ a : Bed, (s.part.bed a).waiting = [] ∧ (a ≠ b → (s.part.bed a).owner = none)) →
    s.part.presence c b = { state := .clearing, count := 15 } → (s.part.presence (otherCrane c) b).state = .absent →
    clampTo s.part.hmp.hallLength x < rect.xLo - (s.part.crane c).margin →
    (s.part.engine g).state = .stopped → (s.part.engine g).stopPoint = some (i, fraction) → (s.part.engine g).pendingOutcome = none →
    (s.part.engine g).job = some j → s.part.record j i = .line u v feed len → s.part.transform g u v = some point →
    s.part.record j (i + 1) = .pierce u' v' current →
    ∃ t, exec (.cranePollAnswer (stationAddress (craneStation c)) x y hookLow loaded none) s = .next t
      ∧ t.part.presence c b = { state := .absent, count := 0 } ∧ (∀ a : Bed, t.part.bed a = s.part.bed a)
      ∧ t.part.engine g =
          { s.part.engine g with
            state := .cut, retryCount := 0, stopPoint := none, credit := (s.part.engine g).credit - 1, outstanding := [i],
            nextRecord := some (i + 1) }
      ∧ (∀ h : Gantry, h ≠ g → t.part.engine h = s.part.engine h)
      ∧ t.part.flp.inFlight = none
      ∧ t.part.flp.pending = s.part.flp.pending.filter (fun r => !isDuePoll c r)
          ++ [⟨gantryStation g, .resume i (.line point feed len) fraction⟩]
      ∧ t.part.bds.registrations = s.part.bds.registrations ∧ t.part.bds.params = s.part.bds.params
      ∧ t.part.jst = s.part.jst ∧ t.part.mks = s.part.mks ∧ t.part.cou = s.part.cou ∧ t.part.rsu = s.part.rsu
      ∧ t.part.ofp = s.part.ofp)

/-- GANTRY POLL ANSWER with one event (R171), each taken whole.
REGISTERED in REGISTER (R54, R56, R77) with the origin in the hall and the skew within its limit: the record is valid for the job's bed
with the bed's tag, and the engine enters MARK; every slot is full here, so that no text is sent.
SEGMENTS_DONE in STOPPED (R85, R99): the oldest segments leave the list, their credit returns, the declared lengths of the LINE and ARC
records among them are added to the burned length, up to 4,294,967,295, and paid into the accumulator and the backlog; whether a segment
of the present chain is done is remembered (log 16). A SEGMENT or RESUME of one of those records that is still pending is withdrawn (log 48).
PIERCE_OK in PIERCE (R83, R84), before a LINE with another PIERCE behind it: the pierce is counted, and the one SEGMENT is requested.
PIERCE_FAILED below the retry limit, with the backlog below 3 (R82, R83): the retry is counted, and the PIERCE requested again.
STOPPED_AT of one of the two records R89 accepts, the bed not clear: the stop point stands, and nothing is sent.
MARK_DONE of a slot that holds no text (R112): MARK_UNDERFLOW.
FAULT in IDLE without a job or a bed request (R91, R95): the engine is in FAULT, its frames are withdrawn (log 27), those missed and kept
among them (log 7), and GANTRY_STATE is given. -/
def Obligations.SegmentsDoneAreCounted : Prop :=
  ∀ (s : Machine.State) (g : Gantry) (w : Nat), Live s.part →
    s.part.flp.inFlight = some ⟨⟨gantryStation g, .poll false⟩, w⟩ → (s.part.station (gantryStation g)).lost = false →
    let e := s.part.engine g
    let taken := s.part.answerTaken (gantryStation g)
    let answer (event : GantryEvent) : Instr := .gantryPollAnswer (stationAddress (gantryStation g)) [event]
    (∀ (j : JobNo) (b : Bed) (plate : Tag) (ox oy k : Int), e.state = .register → e.job = some j → s.part.jobBed j = some b →
      (s.part.bed b).plate = some plate → 0 ≤ ox → ox ≤ s.part.hmp.hallLength → 0 ≤ oy → oy ≤ s.part.hmp.hallWidth →
      -36600 ≤ k → k ≤ 36600 → (∀ x : Fin 4, look (s.part.marks g).slots x ≠ none) →
      Leaves (answer (.registered ox oy k)) s
        ((taken.setRegistration g (some { bed := b, plate := plate, ox := ox, oy := oy, k := k })).setEngine g { e with state := .mark }))
    ∧ (∀ (j : JobNo) (n : Nat), e.state = .stopped → e.job = some j → 1 ≤ n → n ≤ e.outstanding.length →
      let lengths := ((e.outstanding.take n).map (s.part.record j)).filterMap cutLength
      let paid := lengths.foldl (fun a len => addLength ((s.part.params g).period * 10) a.1 a.2 len) (e.accumulator, e.backlog)
      Leaves (answer (.segmentsDone n)) s
        ((taken.withdraw (carriesRecord g (e.outstanding.take n))).setEngine g
          { e with
            outstanding := e.outstanding.drop n, credit := e.credit + n, accumulator := paid.1, backlog := paid.2,
            counters := { e.counters with
              burnedLength := lengths.foldl (fun a len => min 4294967295 (a + len)) e.counters.burnedLength },
            chainDone := e.chainDone || (e.outstanding.take n).any (fun i => e.chainPierce.any (fun c => c < i)) }))
    ∧ (∀ (j : JobNo) (i u v feed len u' v' current : Nat) (point : Point), e.state = .pierce → e.job = some j →
      e.chainPierce = some i → e.outstanding = [] → 0 < e.credit → s.part.record j (i + 1) = .line u v feed len →
      s.part.transform g u v = some point → s.part.record j (i + 2) = .pierce u' v' current →
      Leaves (answer .pierceOk) s
        ((taken.setEngine g
          { e with
            state := .cut, retryCount := 0, counters := { e.counters with pierces := min 65535 (e.counters.pierces + 1) },
            credit := e.credit - 1, outstanding := [i + 1], nextRecord := some (i + 2) }).request
          (gantryStation g) (.segment (i + 1) (.line point feed len))))
    ∧ (∀ (j : JobNo) (i u v current : Nat) (point : Point), e.state = .pierce → e.job = some j → e.nextRecord = some i →
      s.part.record j i = .pierce u v current → s.part.transform g u v = some point → e.backlog < 3 →
      e.retryCount < (s.part.params g).retryLimit →
      Leaves (answer .pierceFailed) s
        ((taken.setEngine g
          { e with
            retryCount := e.retryCount + 1,
            counters := { e.counters with pierceRetries := min 65535 (e.counters.pierceRetries + 1) },
            chainPierce := some i, chainDone := false }).request (gantryStation g) (.pierce i point current)))
    ∧ (∀ (j : JobNo) (b : Bed) (i fraction : Nat), e.state = .stopped → e.job = some j → e.stopPoint = none → e.pendingOutcome = none →
      ((e.chainPierce = some i ∧ e.chainDone = false) ∨ e.outstanding.head? = some i) → s.part.jobBed j = some b →
      s.part.bedClear b = false →
      Leaves (answer (.stoppedAt i fraction)) s
        (taken.setEngine g
          { e with
            stopPoint := some (i, fraction), outstanding := [], credit := (s.part.params g).depth, nextRecord := some (i + 1) }))
    ∧ (∀ (slot : Nat) (ok : Bool), e.state ≠ .off → (∀ x : Fin 4, x.val = slot → look (s.part.marks g).slots x = none) →
      Leaves (answer (.markDone slot ok)) s (taken.setMarks g { s.part.marks g with underflow := true }))
    ∧ (∀ code : Nat, e.state = .idle → e.job = none → e.bedRequest = .none →
      Leaves (answer (.fault code)) s
        { (taken.withdraw (isDispatch g)).setEngine g { e with state := .fault, idleReference := false, refReturn := none } with
          ofp := s.part.ofp.given
            (.gantryState g .fault { stored := e.held, bedClaimed := false } none e.counters.lastPart .machine (some code) none) })

/-- Lengths added one at a time leave the accumulator and the backlog that their sum leaves (R99). A reference pays one (R101, R104):
REFERENCE_DONE in IDLE without a job, its REFERENCE sent, with a backlog of 2 or more, lowers the backlog by 1, and the next REFERENCE
is requested. -/
def Obligations.LengthsAddUp : Prop :=
  (∀ (q acc backlog a b : Nat), 0 < q → acc < q → backlog ≤ 3 →
    (let one := addLength q acc backlog a
     addLength q one.1 one.2 b = addLength q acc backlog (a + b))
    ∧ (addLength q acc backlog a).1 < q ∧ (addLength q acc backlog a).1 = (acc + a) % q
    ∧ (addLength q acc backlog a).2 = min 3 (backlog + (acc + a) / q)
    ∧ addLength 0 acc backlog a = (acc, backlog))
  ∧ (∀ (s : Machine.State) (g : Gantry) (w : Nat), Live s.part →
    s.part.flp.inFlight = some ⟨⟨gantryStation g, .poll false⟩, w⟩ → (s.part.station (gantryStation g)).lost = false →
    (s.part.engine g).state = .idle → (s.part.engine g).job = none → (s.part.engine g).bedRequest = .none →
    (s.part.engine g).idleReference = true → s.part.referencePending g = false → 2 ≤ (s.part.engine g).backlog → s.part.queue g = [] →
    Leaves (.gantryPollAnswer (stationAddress (gantryStation g)) [.referenceDone]) s
      (((s.part.answerTaken (gantryStation g)).setEngine g
        { s.part.engine g with backlog := (s.part.engine g).backlog - 1 }).request (gantryStation g) .reference))

/-- ANSWER ACK (R70, R104, R130, R172): of an ORDER frame, the order's answer is taken; of INIT, with no job in the queue and a backlog, the
engine is IDLE and an idle reference is requested at once. The order that takes the answer is the one that has the number then, of whichever
crane (log 45). -/
def Obligations.AnswerAckReachesTheRequester : Prop :=
  (∀ (s : Machine.State) (c : Crane) (n : OrderNo) (o : Order) (w : Nat) (x y : PlaceOnFloor) (l : Load), Live s.part →
    s.part.flp.inFlight = some ⟨⟨craneStation c, .order n x y l⟩, w⟩ → (s.part.station (craneStation c)).lost = false →
    s.part.order n = some o → o.state = .sent →
    Leaves (.answerAck (stationAddress (craneStation c))) s
      (({ s.part with flp := { s.part.flp with inFlight := none } }.setStation (craneStation c)
        { s.part.station (craneStation c) with misses := 0 }).setOrder n (some { o with answered := true })))
  ∧ (∀ (s : Machine.State) (g : Gantry) (w retry depth period : Nat) (window : Rect) (mode : NoticeMode), Live s.part →
    s.part.flp.inFlight = some ⟨⟨gantryStation g, .init window retry depth period mode⟩, w⟩ →
    (s.part.station (gantryStation g)).lost = false → (s.part.engine g).state = .init → (s.part.engine g).bedRequest = .none →
    (s.part.engine g).idleReference = false → 0 < (s.part.engine g).backlog → s.part.queue g = [] → s.part.referencePending g = false →
    Leaves (.answerAck (stationAddress (gantryStation g))) s
      ((({ s.part with flp := { s.part.flp with inFlight := none } }.setStation (gantryStation g)
        { s.part.station (gantryStation g) with misses := 0 }).setEngine g
        { s.part.engine g with state := .idle, idleReference := true }).request (gantryStation g) .reference))

/-- ANSWER REFUSE of INIT (R70, R95, R172): the engine enters FAULT, and GANTRY_STATE says so with the code. -/
def Obligations.ARefusedInitIsAFault : Prop :=
  ∀ (s : Machine.State) (g : Gantry) (w code retry depth period : Nat) (window : Rect) (mode : NoticeMode), Live s.part →
    s.part.flp.inFlight = some ⟨⟨gantryStation g, .init window retry depth period mode⟩, w⟩ →
    (s.part.station (gantryStation g)).lost = false → (s.part.engine g).state = .init → (s.part.engine g).bedRequest = .none →
    Leaves (.answerRefuse (stationAddress (gantryStation g)) code) s
      { ({ s.part with flp := { s.part.flp with inFlight := none } }.setStation (gantryStation g)
          { s.part.station (gantryStation g) with misses := 0 }).setEngine g
          { s.part.engine g with state := .fault, idleReference := false, refReturn := none } with
        ofp := s.part.ofp.given
          (.gantryState g .fault { stored := (s.part.engine g).held, bedClaimed := false } (s.part.engine g).job
            (s.part.engine g).counters.lastPart .init (some code) none) }

/-! ## Time -/

/-- REPORT AGE TICK and DUE POLL RAISE (R24, R27): every installed crane's age rises by one, up to 65,535; past half its timeout a TRACKING
crane's due poll is raised and its frame requested, and a due poll that is raised already is not raised again. That a tick changes the
ages alone, the due poll and the loss being rows of their own, is log 22. -/
def Obligations.AgesRiseAndDuePollsAreRaised : Prop :=
  (∀ s : Machine.State, Live s.part → ∃ t, exec .reportAgeTick s = .next t
    ∧ (∀ c : Crane, (s.part.crane c).state ≠ .uninstalled →
        t.part.crane c = { s.part.crane c with age := if (s.part.crane c).age < 65535 then (s.part.crane c).age + 1 else 65535 })
    ∧ (∀ c : Crane, (s.part.crane c).state = .uninstalled → t.part.crane c = s.part.crane c)
    ∧ t.part = { s.part with hmp := { s.part.hmp with cranes := t.part.hmp.cranes } })
  ∧ (∀ (s : Machine.State) (c : Crane), Live s.part → (s.part.crane c).state = .tracking → (s.part.crane c).duePoll = false →
    (s.part.crane c).timeout < 2 * (s.part.crane c).age →
    Leaves (.duePollRaise c) s
      { s.part.setCrane c { s.part.crane c with duePoll := true } with
        flp := { s.part.flp with pending := s.part.flp.pending ++ [⟨craneStation c, .poll true⟩] } })
  ∧ (∀ (s : Machine.State) (c : Crane), Live s.part → (s.part.crane c).duePoll = true → Leaves (.duePollRaise c) s s.part)

/-- POSITION TIMEOUT of a TRACKING crane with no order, with no bed burned (R28, R25): the crane is LOST and PRESENT over every loaded bed,
its due poll is withdrawn, and CRANE_LOST is given with the age. With a bed whose owner is in CUT, the crane ABSENT before (R25, R87): the
owner gets an arrival, an ARC STOP is requested, the engine is STOPPED without a stop point, and its GANTRY_STATE comes before CRANE_LOST.
A RESUME pending then stays pending behind the ARC STOP (log 8). A crane whose age is below its timeout is not touched (that the row acts by
the age is log 22). -/
def Obligations.APositionTimeoutLosesTheCrane : Prop :=
  (∀ (s : Machine.State) (c : Crane), Live s.part → (s.part.crane c).state = .tracking → (s.part.crane c).timeout ≤ (s.part.crane c).age →
    (∀ b : Bed, (s.part.bed b).owner = none ∧ (s.part.bed b).waiting = []) → s.part.orderQueue c = [] →
    Leaves (.positionTimeout c) s
      { (((s.part.setCrane c { s.part.crane c with state := .lost, duePoll := false }).withdraw (isDuePoll c)).putPresences c
          (fun b => { state := if (s.part.bed b).loaded then .present else .absent, count := 0 })) with
        ofp := s.part.ofp.given (.craneLost c .timeout (s.part.crane c).age) })
  ∧ (∀ (s : Machine.State) (c : Crane), Live s.part → (s.part.crane c).age < (s.part.crane c).timeout → Leaves (.positionTimeout c) s s.part)
  ∧ (∀ (s : Machine.State) (c : Crane) (b : Bed) (g : Gantry), Live s.part → (s.part.crane c).state = .tracking →
    (s.part.crane c).timeout ≤ (s.part.crane c).age → s.part.orderQueue c = [] →
    (∀ a : Bed, (s.part.bed a).waiting = [] ∧ (a ≠ b → (s.part.bed a).owner = none)) → (s.part.bed b).owner = some g →
    (s.part.bed b).loaded = true → (s.part.presence c b).state = .absent →
    (s.part.engine g).state = .cut → (s.part.engine g).outstanding ≠ [] →
    (∀ r ∈ s.part.flp.pending, r.station = gantryStation g → r.frame.cls ≠ 1 ∧ r.frame.kind ≠ 0x06) →
    Leaves (.positionTimeout c) s
      { (((((s.part.setCrane c { s.part.crane c with state := .lost, duePoll := false }).withdraw (isDuePoll c)).putPresences c
          (fun a => { state := if (s.part.bed a).loaded then .present else .absent, count := 0 })).setEngine g
          { s.part.engine g with state := .stopped, stopPoint := none }).request (gantryStation g) (.arcStop .engine)) with
        ofp := (s.part.ofp.given (.gantryState g .stopped { stored := (s.part.engine g).held, bedClaimed := false } (s.part.engine g).job
            (s.part.engine g).counters.lastPart .arrival none none)).notify
          (.craneLost c .timeout (s.part.crane c).age) })

/-! ## Arithmetic of the rules -/

/-- The margin for a thickness (R15). -/
def Obligations.TheMarginOfAThickness : Prop :=
  ∀ (p : Machine.Part) (t : Nat),
    (∀ i : Fin 8, (p.band i).loaded = true → t ≤ (p.band i).bound →
      (∀ j : Fin 8, j < i → (p.band j).loaded = true → (p.band j).bound < t) → p.marginFor t = (p.band i).margin)
    ∧ (∀ i : Fin 8, (p.band i).loaded = true → (∀ j : Fin 8, (p.band j).loaded = true → (p.band j).bound < t) →
      (∀ j : Fin 8, i < j → (p.band j).loaded = false) → p.marginFor t = (p.band i).margin)

/-- The plate-to-hall transform (R59, R60): every stage, and the range of every stage within the limits of the operands. -/
def Obligations.TheTransformStaysInItsRanges : Prop :=
  (∀ (r : Registration) (u v : Nat),
    hallPoint r u v
      = ⟨r.ox + ((u : Int) * (1048576 - r.k * r.k / 2097152) - v * r.k + 524288) / 1048576,
         r.oy + ((v : Int) * (1048576 - r.k * r.k / 2097152) + u * r.k + 524288) / 1048576⟩)
  ∧ (∀ k : Int, cosTerm (-k) = cosTerm k ∧ cosTerm k ≤ 1048576 ∧ (-1448 ≤ k → k ≤ 1448 → cosTerm k = 1048576))
  ∧ cosTerm 36600 = 1047938
  ∧ (∀ (r : Registration) (u v : Nat), u ≤ 250000 → v ≤ 60000 → -36600 ≤ r.k → r.k ≤ 36600 →
      let nx : Int := (u : Int) * cosTerm r.k - v * r.k
      let ny : Int := (v : Int) * cosTerm r.k + u * r.k
      1047938 ≤ cosTerm r.k ∧ -2196000000 ≤ nx ∧ nx ≤ 264180500000 ∧ -9150000000 ≤ ny ∧ ny ≤ 72026280000
      ∧ -2094 ≤ (hallPoint r u v).x - r.ox ∧ (hallPoint r u v).x - r.ox ≤ 251942
      ∧ -8726 ≤ (hallPoint r u v).y - r.oy ∧ (hallPoint r u v).y - r.oy ≤ 68690)

/-! ## Encodings -/

/-- A job record that a JOB WRITE may carry reads back from its 24 bytes (R40, R189, R195): every kind, every field at every value of its
range. A COMPLETION is refused whatever it says. -/
def Obligations.AJobRecordReadsBack : Prop :=
  parseRecord (encodeRecord .empty) = some .empty
  ∧ parseRecord (encodeRecord .endOfJob) = some .endOfJob
  ∧ (∀ (k : TagKind) (num : Nat) (b : Fin 8) (grade thickness parts : Nat) (c : Condition) (d : Option (Nat × Nat)),
      1 ≤ num → num ≤ 4294967295 → grade ≤ 15 → 30 ≤ thickness → thickness ≤ 1500 → parts ≤ 65535 →
      (∀ w l, d = some (w, l) → 1 ≤ w ∧ w ≤ 24000 ∧ 1 ≤ l ∧ l ≤ 24000) →
      parseRecord (encodeRecord (.header ⟨k, num⟩ b grade thickness c d parts)) = some (.header ⟨k, num⟩ b grade thickness c d parts))
  ∧ (∀ (tag u v texts : Nat) (required : Bool), tag ≤ 4294967295 → u ≤ 250000 → v ≤ 60000 → texts ≤ 2 →
      parseRecord (encodeRecord (.part tag u v required texts)) = some (.part tag u v required texts))
  ∧ (∀ chars : List Byte, chars.length = 16 → parseRecord (encodeRecord (.text chars)) = some (.text chars))
  ∧ (∀ u v n, u ≤ 250000 → v ≤ 60000 → n ≤ 7 → parseRecord (encodeRecord (.pierce u v n)) = some (.pierce u v n))
  ∧ (∀ u v f n, u ≤ 250000 → v ≤ 60000 → f ≤ 7 → 1 ≤ n → n ≤ 4000000 →
      parseRecord (encodeRecord (.line u v f n)) = some (.line u v f n))
  ∧ (∀ u v cu cv ccw f n, u ≤ 250000 → v ≤ 60000 → cu ≤ 250000 → cv ≤ 60000 → f ≤ 7 → 1 ≤ n → n ≤ 4000000 →
      parseRecord (encodeRecord (.arc u v cu cv ccw f n)) = some (.arc u v cu cv ccw f n))
  ∧ (∀ u v, u ≤ 250000 → v ≤ 60000 → parseRecord (encodeRecord (.rapid u v)) = some (.rapid u v))
  ∧ (∀ c, parseRecord (encodeRecord (.completion c)) = none)

/-- A floor answer reads back from its bytes (R192 to R194): a POSITION and an event list of well-formed fields, ACK and REFUSE, in a frame
of the line with its address and kind. -/
def Obligations.AFloorAnswerReadsBack : Prop :=
  (∀ (x y : Int) (hookLow loaded : Bool) (event : Option (OrderEventKind × Nat)), fitsCoord x = true → fitsCoord y = true →
      (∀ e, event = some e → e.2 < 32) →
      parseAnswer 0x83 (positionBytes x y hookLow loaded event) = .position x y hookLow loaded event)
  ∧ (∀ events : List GantryEvent, events.length ≤ 4 → events.all GantryEvent.wf = true →
      parseAnswer 0x84 (eventBytes events) = .events events)
  ∧ parseAnswer 0x81 [] = .ack
  ∧ (∀ code, code ≤ 255 → parseAnswer 0x82 (toBytes 1 code) = .refuse code)
  ∧ (∀ (address kind : Nat) (payload : List Byte), address < 256 → kind < 256 → payload.length ≤ 238 →
      parseFloorFrame (floorBytes address kind payload) = some ⟨address, kind, payload⟩)

/-! ## Invariants -/

/-- Whatever happens, the record memory (R34) keeps its canonical form, which is the model's own (log 12), and every page stands in one
place, the pool or one job's page list (R35, R36). -/
def Obligations.TheRecordMemoryStaysCanonical : Prop :=
  ∀ s t : Machine.State, step s = .next t → (MemoryOk s.part → MemoryOk t.part) ∧ (PagesOk s.part → PagesOk t.part)

/-- No bed ever has both a burn owner and a crane claim (R7), a valid registration always names a bed that carries its plate tag (R6), and a
waiting list never holds two requests of one requester (R8). No backlog ever exceeds 3 (R97). -/
def Obligations.BedRecordsStayInOrder : Prop :=
  ∀ s t : Machine.State, step s = .next t →
    (HolderOk s.part → HolderOk t.part) ∧ (RegistrationOk s.part → RegistrationOk t.part) ∧ (WaitingOk s.part → WaitingOk t.part)
    ∧ (BacklogOk s.part → BacklogOk t.part)

/-- The Office Port stays within its bounds (R180, R181), and between two steps no hand-off is left and nothing waits for a free transmitter.
At most one passthrough is pending, in flight or answered in the kept place (R174, R180). -/
def Obligations.TheOfficePortStaysInItsBounds : Prop :=
  ∀ s t : Machine.State, step s = .next t →
    (OfficeOk s.part → RestOk s.part → OfficeOk t.part ∧ RestOk t.part) ∧ (PassOk s.part → PassOk t.part)

/-- Remnant numbers stay those the entry sequence has given, each once (R142). An order queue holds at most 16 numbers, each once, and each
that of an order in use of its crane (R122). -/
def Obligations.RemnantNumbersStayDistinct : Prop :=
  ∀ s t : Machine.State, step s = .next t → (RemnantsOk s.part → RemnantsOk t.part) ∧ (QueuesOk s.part → QueuesOk t.part)

/-- The invariants hold right after a reset, and after power-up or the taking of the reset input. -/
def Obligations.TheInvariantsHoldAfterReset : Prop :=
  ∀ byInput : Bool, ∀ p ∈ [Machine.State.reset.part, coldReset byInput],
    MemoryOk p ∧ PagesOk p ∧ HolderOk p ∧ RegistrationOk p ∧ WaitingOk p ∧ BacklogOk p ∧ OfficeOk p ∧ RestOk p ∧ PassOk p ∧ RemnantsOk p
    ∧ QueuesOk p
end

