-- ==== Sys2Proof/Laws/Memory.lean ====
section
/-! SUPPORT. The record memory: what a write and an erasing read back, and that both keep the canonical form. -/

namespace Sys2Proof.Machine

/-! ## Reading back -/

/-- An erased address reads EMPTY, and every other one as before. -/
theorem Memory.read_erase (m : RecMem) (a b : Nat) : Memory.read (Memory.erase m a) b = if b = a then .empty else Memory.read m b := by
  induction m with
  | nil => simp [Memory.erase, Memory.read]
  | cons e m ih =>
      obtain ⟨c, q⟩ := e
      simp only [Memory.erase, List.filter_cons] at ih ⊢
      by_cases h : c = a
      · subst h; simp only [bne_self_eq_false, Bool.false_eq_true, if_false, ih, Memory.read]
        by_cases hb : b = c
        · simp [hb]
        · simp [hb, Ne.symm hb]
      · simp only [bne_iff_ne, ne_eq, h, not_false_eq_true, if_true, Memory.read, ih]
        by_cases hb : b = a
        · subst hb; simp [h]
        · simp [hb]

/-- An inserted record reads back, and every other address as before. -/
theorem Memory.read_insert (m : RecMem) (a b : Nat) (r : Record) :
    Memory.read (Memory.insert m a r) b = if b = a then r else Memory.read m b := by
  induction m with
  | nil => simp [Memory.insert, Memory.read, eq_comm]
  | cons e m ih =>
      obtain ⟨c, q⟩ := e
      simp only [Memory.insert]
      split
      · simp only [Memory.read]; by_cases hb : a = b
        · simp [hb]
        · simp [hb, Ne.symm hb]
      · split
        · rename_i h1 h2; subst h2; simp only [Memory.read]; by_cases hb : a = b
          · simp [hb]
          · simp [hb, Ne.symm hb]
        · rename_i h1 h2; simp only [Memory.read, ih]; by_cases hb : c = b
          · subst hb; simp [Ne.symm h2]
          · simp [hb]

/-- A written record reads back, and every other address as before. -/
theorem Memory.read_write (m : RecMem) (a b : Nat) (r : Record) :
    Memory.read (Memory.write m a r) b = if b = a then r else Memory.read m b := by
  unfold Memory.write
  split
  · rename_i h; subst h; exact Memory.read_erase m a b
  · exact Memory.read_insert m a b r

/-- The records of an erased page read EMPTY, and every other one as before. -/
theorem Memory.read_erasePage (m : RecMem) (pg b : Nat) :
    Memory.read (Memory.erasePage m pg) b = if b / 16 = pg then .empty else Memory.read m b := by
  induction m with
  | nil => simp [Memory.erasePage, Memory.read]
  | cons e m ih =>
      obtain ⟨c, q⟩ := e
      simp only [Memory.erasePage, List.filter_cons] at ih ⊢
      by_cases h : c / 16 = pg
      · simp only [h, bne_self_eq_false, Bool.false_eq_true, if_false, ih, Memory.read]
        by_cases hb : b / 16 = pg
        · simp [hb]
        · have : c ≠ b := fun x => hb (x ▸ h)
          simp [hb, this]
      · simp only [bne_iff_ne, ne_eq, h, not_false_eq_true, if_true, Memory.read, ih]
        by_cases hb : c = b
        · subst hb; simp [h]
        · simp [hb]

/-- The records of several erased pages. -/
theorem Memory.read_erasePages (pgs : List Nat) (m : RecMem) (b : Nat) :
    Memory.read (pgs.foldl Memory.erasePage m) b = if b / 16 ∈ pgs then .empty else Memory.read m b := by
  induction pgs generalizing m with
  | nil => simp
  | cons pg pgs ih =>
      simp only [List.foldl_cons, ih, Memory.read_erasePage, List.mem_cons]
      by_cases h1 : b / 16 = pg <;> by_cases h2 : b / 16 ∈ pgs <;> simp [h1, h2]

/-! ## The canonical form -/

/-- A smaller start is still below every address. -/
theorem Memory.wfFrom_mono {m : RecMem} {lo hi : Nat} (h : lo ≤ hi) (hm : Memory.wfFrom hi m = true) : Memory.wfFrom lo m = true := by
  cases m with
  | nil => rfl
  | cons e m =>
      obtain ⟨a, r⟩ := e
      simp only [Memory.wfFrom, Bool.and_eq_true, decide_eq_true_eq] at hm ⊢
      exact ⟨⟨by omega, hm.1.2⟩, hm.2⟩

/-- Leaving entries out keeps the form. -/
theorem Memory.wfFrom_filter (what : Nat × Record → Bool) {m : RecMem} {lo : Nat} (hm : Memory.wfFrom lo m = true) :
    Memory.wfFrom lo (m.filter what) = true := by
  induction m generalizing lo with
  | nil => rfl
  | cons e m ih =>
      obtain ⟨a, r⟩ := e
      simp only [Memory.wfFrom, Bool.and_eq_true, decide_eq_true_eq] at hm
      simp only [List.filter_cons]
      split
      · simp only [Memory.wfFrom, Bool.and_eq_true, decide_eq_true_eq]; exact ⟨hm.1, ih hm.2⟩
      · exact Memory.wfFrom_mono (by omega) (ih hm.2)

/-- An erasing keeps the form. -/
theorem Memory.erase_wf {m : RecMem} (a : Nat) (h : Memory.wf m = true) : Memory.wf (Memory.erase m a) = true :=
  Memory.wfFrom_filter _ h

/-- An erased page keeps the form. -/
theorem Memory.erasePage_wf {m : RecMem} (pg : Nat) (h : Memory.wf m = true) : Memory.wf (Memory.erasePage m pg) = true :=
  Memory.wfFrom_filter _ h

/-- Several erased pages keep the form. -/
theorem Memory.erasePages_wf (pgs : List Nat) {m : RecMem} (h : Memory.wf m = true) :
    Memory.wf (pgs.foldl Memory.erasePage m) = true := by
  induction pgs generalizing m with
  | nil => exact h
  | cons pg pgs ih => exact ih (Memory.erasePage_wf pg h)

/-- An inserted record that is not EMPTY keeps the form. -/
theorem Memory.insert_wfFrom {m : RecMem} {lo a : Nat} {r : Record} (hr : r ≠ .empty) (hlo : lo ≤ a) (hm : Memory.wfFrom lo m = true) :
    Memory.wfFrom lo (Memory.insert m a r) = true := by
  induction m generalizing lo with
  | nil => simp [Memory.insert, Memory.wfFrom, hlo, hr]
  | cons e m ih =>
      obtain ⟨b, q⟩ := e
      simp only [Memory.wfFrom, Bool.and_eq_true, decide_eq_true_eq] at hm
      simp only [Memory.insert]
      split
      · simp only [Memory.wfFrom, Bool.and_eq_true, decide_eq_true_eq, bne_iff_ne, ne_eq]
        exact ⟨⟨hlo, hr⟩, ⟨by omega, by simpa using hm.1.2⟩, hm.2⟩
      · split
        · rename_i h1 h2; subst h2
          simp only [Memory.wfFrom, Bool.and_eq_true, decide_eq_true_eq, bne_iff_ne, ne_eq]
          exact ⟨⟨hlo, hr⟩, hm.2⟩
        · simp only [Memory.wfFrom, Bool.and_eq_true, decide_eq_true_eq]
          exact ⟨hm.1, ih (by omega) hm.2⟩

/-- A write keeps the form. -/
theorem Memory.write_wf {m : RecMem} (a : Nat) (r : Record) (h : Memory.wf m = true) : Memory.wf (Memory.write m a r) = true := by
  unfold Memory.write
  split
  · exact Memory.erase_wf a h
  · rename_i hr; exact Memory.insert_wfFrom hr (Nat.zero_le _) h

end Sys2Proof.Machine
end

