-- ==== Sys2Proof/Laws/State.lean ====
section
/-! SUPPORT. One lemma per field per update of the part: what an update writes reads back, and every other field is as before. -/

namespace Sys2Proof

/-- Reading a table after one entry was replaced. -/
theorem look_put {α : Type} {n : Nat} (v : Vector α n) (i k : Fin n) (a : α) : look (put v i a) k = if i = k then a else look v k := by
  unfold look put
  by_cases h : i = k
  · subst h; simp
  · have : i.val ≠ k.val := fun e => h (Fin.ext e)
    simp [h, this, Vector.getElem_set_ne]

/-- Of two replacements of one entry the later counts. -/
theorem put_put {α : Type} {n : Nat} (v : Vector α n) (i : Fin n) (a b : α) : put (put v i a) i b = put v i b := by
  unfold put; simp

/-- An entry replaced by itself leaves the table as it was. -/
theorem put_look {α : Type} {n : Nat} (v : Vector α n) (i : Fin n) : put v i (look v i) = v := by
  unfold look put; simp

end Sys2Proof

namespace Sys2Proof.Machine

/-! ## What an update writes -/

@[simp] theorem Part.setBed_bed (p : Part) (i k : Bed) (r : BedRec) : (p.setBed i r).bed k = if i = k then r else p.bed k := look_put _ _ _ _
@[simp] theorem Part.setCrane_crane (p : Part) (i k : Crane) (r : CraneRec) : (p.setCrane i r).crane k = if i = k then r else p.crane k := look_put _ _ _ _
@[simp] theorem Part.setJob_job (p : Part) (i k : JobNo) (r : JobEntry) : (p.setJob i r).job k = if i = k then r else p.job k := look_put _ _ _ _
@[simp] theorem Part.setQueue_queue (p : Part) (i k : Gantry) (r : List JobNo) : (p.setQueue i r).queue k = if i = k then r else p.queue k := look_put _ _ _ _
@[simp] theorem Part.setEngine_engine (p : Part) (i k : Gantry) (r : Engine) : (p.setEngine i r).engine k = if i = k then r else p.engine k := look_put _ _ _ _
@[simp] theorem Part.setRegistration_registration (p : Part) (i k : Gantry) (r : Option Registration) : (p.setRegistration i r).registration k = if i = k then r else p.registration k := look_put _ _ _ _
@[simp] theorem Part.setParams_params (p : Part) (i k : Gantry) (r : GantryParams) : (p.setParams i r).params k = if i = k then r else p.params k := look_put _ _ _ _
@[simp] theorem Part.setMarks_marks (p : Part) (i k : Gantry) (r : MarkContext) : (p.setMarks i r).marks k = if i = k then r else p.marks k := look_put _ _ _ _
@[simp] theorem Part.setOrder_order (p : Part) (i k : OrderNo) (r : Option Order) : (p.setOrder i r).order k = if i = k then r else p.order k := look_put _ _ _ _
@[simp] theorem Part.setOrderQueue_orderQueue (p : Part) (i k : Crane) (r : List OrderNo) : (p.setOrderQueue i r).orderQueue k = if i = k then r else p.orderQueue k := look_put _ _ _ _
@[simp] theorem Part.setSlot_slot (p : Part) (i k : SlotNo) (r : SlotRec) : (p.setSlot i r).slot k = if i = k then r else p.slot k := look_put _ _ _ _
@[simp] theorem Part.setStation_station (p : Part) (i k : Station) (r : StationRec) : (p.setStation i r).station k = if i = k then r else p.station k := look_put _ _ _ _
@[simp] theorem Part.setPass_pass (p : Part) (i k : Station) (r : PassRec) : (p.setPass i r).pass k = if i = k then r else p.pass k := look_put _ _ _ _
@[simp] theorem Part.setPresence_presence (p : Part) (c d : Crane) (a b : Bed) (r : Presence) :
    (p.setPresence c a r).presence d b = if presenceIx c a = presenceIx d b then r else p.presence d b := look_put _ _ _ _

/-! ## What an update leaves -/

@[simp] theorem Part.setBed_jst (p : Part) (b : Bed) (r : BedRec) : (p.setBed b r).jst = p.jst := rfl
@[simp] theorem Part.setBed_bds (p : Part) (b : Bed) (r : BedRec) : (p.setBed b r).bds = p.bds := rfl
@[simp] theorem Part.setBed_mks (p : Part) (b : Bed) (r : BedRec) : (p.setBed b r).mks = p.mks := rfl
@[simp] theorem Part.setBed_cou (p : Part) (b : Bed) (r : BedRec) : (p.setBed b r).cou = p.cou := rfl
@[simp] theorem Part.setBed_rsu (p : Part) (b : Bed) (r : BedRec) : (p.setBed b r).rsu = p.rsu := rfl
@[simp] theorem Part.setBed_flp (p : Part) (b : Bed) (r : BedRec) : (p.setBed b r).flp = p.flp := rfl
@[simp] theorem Part.setBed_ofp (p : Part) (b : Bed) (r : BedRec) : (p.setBed b r).ofp = p.ofp := rfl
@[simp] theorem Part.setBed_agenda (p : Part) (b : Bed) (r : BedRec) : (p.setBed b r).agenda = p.agenda := rfl
@[simp] theorem Part.setBed_hmp_cranes (p : Part) (b : Bed) (r : BedRec) : (p.setBed b r).hmp.cranes = p.hmp.cranes := rfl
@[simp] theorem Part.setBed_hmp_presences (p : Part) (b : Bed) (r : BedRec) : (p.setBed b r).hmp.presences = p.hmp.presences := rfl
@[simp] theorem Part.setBed_hmp_hallLength (p : Part) (b : Bed) (r : BedRec) : (p.setBed b r).hmp.hallLength = p.hmp.hallLength := rfl
@[simp] theorem Part.setBed_hmp_hallWidth (p : Part) (b : Bed) (r : BedRec) : (p.setBed b r).hmp.hallWidth = p.hmp.hallWidth := rfl
@[simp] theorem Part.setBed_hmp_bands (p : Part) (b : Bed) (r : BedRec) : (p.setBed b r).hmp.bands = p.hmp.bands := rfl
@[simp] theorem Part.setBed_crane (p : Part) (b : Bed) (r : BedRec) (x : Crane) : (p.setBed b r).crane x = p.crane x := rfl
@[simp] theorem Part.setBed_presence (p : Part) (b : Bed) (r : BedRec) (x : Crane) (y : Bed) : (p.setBed b r).presence x y = p.presence x y := rfl
@[simp] theorem Part.setBed_job (p : Part) (b : Bed) (r : BedRec) (x : JobNo) : (p.setBed b r).job x = p.job x := rfl
@[simp] theorem Part.setBed_queue (p : Part) (b : Bed) (r : BedRec) (x : Gantry) : (p.setBed b r).queue x = p.queue x := rfl
@[simp] theorem Part.setBed_engine (p : Part) (b : Bed) (r : BedRec) (x : Gantry) : (p.setBed b r).engine x = p.engine x := rfl
@[simp] theorem Part.setBed_registration (p : Part) (b : Bed) (r : BedRec) (x : Gantry) : (p.setBed b r).registration x = p.registration x := rfl
@[simp] theorem Part.setBed_params (p : Part) (b : Bed) (r : BedRec) (x : Gantry) : (p.setBed b r).params x = p.params x := rfl
@[simp] theorem Part.setBed_marks (p : Part) (b : Bed) (r : BedRec) (x : Gantry) : (p.setBed b r).marks x = p.marks x := rfl
@[simp] theorem Part.setBed_order (p : Part) (b : Bed) (r : BedRec) (x : OrderNo) : (p.setBed b r).order x = p.order x := rfl
@[simp] theorem Part.setBed_orderQueue (p : Part) (b : Bed) (r : BedRec) (x : Crane) : (p.setBed b r).orderQueue x = p.orderQueue x := rfl
@[simp] theorem Part.setBed_slot (p : Part) (b : Bed) (r : BedRec) (x : SlotNo) : (p.setBed b r).slot x = p.slot x := rfl
@[simp] theorem Part.setBed_station (p : Part) (b : Bed) (r : BedRec) (x : Station) : (p.setBed b r).station x = p.station x := rfl
@[simp] theorem Part.setBed_pass (p : Part) (b : Bed) (r : BedRec) (x : Station) : (p.setBed b r).pass x = p.pass x := rfl
@[simp] theorem Part.setCrane_jst (p : Part) (c : Crane) (r : CraneRec) : (p.setCrane c r).jst = p.jst := rfl
@[simp] theorem Part.setCrane_bds (p : Part) (c : Crane) (r : CraneRec) : (p.setCrane c r).bds = p.bds := rfl
@[simp] theorem Part.setCrane_mks (p : Part) (c : Crane) (r : CraneRec) : (p.setCrane c r).mks = p.mks := rfl
@[simp] theorem Part.setCrane_cou (p : Part) (c : Crane) (r : CraneRec) : (p.setCrane c r).cou = p.cou := rfl
@[simp] theorem Part.setCrane_rsu (p : Part) (c : Crane) (r : CraneRec) : (p.setCrane c r).rsu = p.rsu := rfl
@[simp] theorem Part.setCrane_flp (p : Part) (c : Crane) (r : CraneRec) : (p.setCrane c r).flp = p.flp := rfl
@[simp] theorem Part.setCrane_ofp (p : Part) (c : Crane) (r : CraneRec) : (p.setCrane c r).ofp = p.ofp := rfl
@[simp] theorem Part.setCrane_agenda (p : Part) (c : Crane) (r : CraneRec) : (p.setCrane c r).agenda = p.agenda := rfl
@[simp] theorem Part.setCrane_hmp_beds (p : Part) (c : Crane) (r : CraneRec) : (p.setCrane c r).hmp.beds = p.hmp.beds := rfl
@[simp] theorem Part.setCrane_hmp_presences (p : Part) (c : Crane) (r : CraneRec) : (p.setCrane c r).hmp.presences = p.hmp.presences := rfl
@[simp] theorem Part.setCrane_hmp_hallLength (p : Part) (c : Crane) (r : CraneRec) : (p.setCrane c r).hmp.hallLength = p.hmp.hallLength := rfl
@[simp] theorem Part.setCrane_hmp_hallWidth (p : Part) (c : Crane) (r : CraneRec) : (p.setCrane c r).hmp.hallWidth = p.hmp.hallWidth := rfl
@[simp] theorem Part.setCrane_hmp_bands (p : Part) (c : Crane) (r : CraneRec) : (p.setCrane c r).hmp.bands = p.hmp.bands := rfl
@[simp] theorem Part.setCrane_bed (p : Part) (c : Crane) (r : CraneRec) (x : Bed) : (p.setCrane c r).bed x = p.bed x := rfl
@[simp] theorem Part.setCrane_presence (p : Part) (c : Crane) (r : CraneRec) (x : Crane) (y : Bed) : (p.setCrane c r).presence x y = p.presence x y := rfl
@[simp] theorem Part.setCrane_job (p : Part) (c : Crane) (r : CraneRec) (x : JobNo) : (p.setCrane c r).job x = p.job x := rfl
@[simp] theorem Part.setCrane_queue (p : Part) (c : Crane) (r : CraneRec) (x : Gantry) : (p.setCrane c r).queue x = p.queue x := rfl
@[simp] theorem Part.setCrane_engine (p : Part) (c : Crane) (r : CraneRec) (x : Gantry) : (p.setCrane c r).engine x = p.engine x := rfl
@[simp] theorem Part.setCrane_registration (p : Part) (c : Crane) (r : CraneRec) (x : Gantry) : (p.setCrane c r).registration x = p.registration x := rfl
@[simp] theorem Part.setCrane_params (p : Part) (c : Crane) (r : CraneRec) (x : Gantry) : (p.setCrane c r).params x = p.params x := rfl
@[simp] theorem Part.setCrane_marks (p : Part) (c : Crane) (r : CraneRec) (x : Gantry) : (p.setCrane c r).marks x = p.marks x := rfl
@[simp] theorem Part.setCrane_order (p : Part) (c : Crane) (r : CraneRec) (x : OrderNo) : (p.setCrane c r).order x = p.order x := rfl
@[simp] theorem Part.setCrane_orderQueue (p : Part) (c : Crane) (r : CraneRec) (x : Crane) : (p.setCrane c r).orderQueue x = p.orderQueue x := rfl
@[simp] theorem Part.setCrane_slot (p : Part) (c : Crane) (r : CraneRec) (x : SlotNo) : (p.setCrane c r).slot x = p.slot x := rfl
@[simp] theorem Part.setCrane_station (p : Part) (c : Crane) (r : CraneRec) (x : Station) : (p.setCrane c r).station x = p.station x := rfl
@[simp] theorem Part.setCrane_pass (p : Part) (c : Crane) (r : CraneRec) (x : Station) : (p.setCrane c r).pass x = p.pass x := rfl
@[simp] theorem Part.setPresence_jst (p : Part) (c : Crane) (b : Bed) (r : Presence) : (p.setPresence c b r).jst = p.jst := rfl
@[simp] theorem Part.setPresence_bds (p : Part) (c : Crane) (b : Bed) (r : Presence) : (p.setPresence c b r).bds = p.bds := rfl
@[simp] theorem Part.setPresence_mks (p : Part) (c : Crane) (b : Bed) (r : Presence) : (p.setPresence c b r).mks = p.mks := rfl
@[simp] theorem Part.setPresence_cou (p : Part) (c : Crane) (b : Bed) (r : Presence) : (p.setPresence c b r).cou = p.cou := rfl
@[simp] theorem Part.setPresence_rsu (p : Part) (c : Crane) (b : Bed) (r : Presence) : (p.setPresence c b r).rsu = p.rsu := rfl
@[simp] theorem Part.setPresence_flp (p : Part) (c : Crane) (b : Bed) (r : Presence) : (p.setPresence c b r).flp = p.flp := rfl
@[simp] theorem Part.setPresence_ofp (p : Part) (c : Crane) (b : Bed) (r : Presence) : (p.setPresence c b r).ofp = p.ofp := rfl
@[simp] theorem Part.setPresence_agenda (p : Part) (c : Crane) (b : Bed) (r : Presence) : (p.setPresence c b r).agenda = p.agenda := rfl
@[simp] theorem Part.setPresence_hmp_beds (p : Part) (c : Crane) (b : Bed) (r : Presence) : (p.setPresence c b r).hmp.beds = p.hmp.beds := rfl
@[simp] theorem Part.setPresence_hmp_cranes (p : Part) (c : Crane) (b : Bed) (r : Presence) : (p.setPresence c b r).hmp.cranes = p.hmp.cranes := rfl
@[simp] theorem Part.setPresence_hmp_hallLength (p : Part) (c : Crane) (b : Bed) (r : Presence) : (p.setPresence c b r).hmp.hallLength = p.hmp.hallLength := rfl
@[simp] theorem Part.setPresence_hmp_hallWidth (p : Part) (c : Crane) (b : Bed) (r : Presence) : (p.setPresence c b r).hmp.hallWidth = p.hmp.hallWidth := rfl
@[simp] theorem Part.setPresence_hmp_bands (p : Part) (c : Crane) (b : Bed) (r : Presence) : (p.setPresence c b r).hmp.bands = p.hmp.bands := rfl
@[simp] theorem Part.setPresence_bed (p : Part) (c : Crane) (b : Bed) (r : Presence) (x : Bed) : (p.setPresence c b r).bed x = p.bed x := rfl
@[simp] theorem Part.setPresence_crane (p : Part) (c : Crane) (b : Bed) (r : Presence) (x : Crane) : (p.setPresence c b r).crane x = p.crane x := rfl
@[simp] theorem Part.setPresence_job (p : Part) (c : Crane) (b : Bed) (r : Presence) (x : JobNo) : (p.setPresence c b r).job x = p.job x := rfl
@[simp] theorem Part.setPresence_queue (p : Part) (c : Crane) (b : Bed) (r : Presence) (x : Gantry) : (p.setPresence c b r).queue x = p.queue x := rfl
@[simp] theorem Part.setPresence_engine (p : Part) (c : Crane) (b : Bed) (r : Presence) (x : Gantry) : (p.setPresence c b r).engine x = p.engine x := rfl
@[simp] theorem Part.setPresence_registration (p : Part) (c : Crane) (b : Bed) (r : Presence) (x : Gantry) : (p.setPresence c b r).registration x = p.registration x := rfl
@[simp] theorem Part.setPresence_params (p : Part) (c : Crane) (b : Bed) (r : Presence) (x : Gantry) : (p.setPresence c b r).params x = p.params x := rfl
@[simp] theorem Part.setPresence_marks (p : Part) (c : Crane) (b : Bed) (r : Presence) (x : Gantry) : (p.setPresence c b r).marks x = p.marks x := rfl
@[simp] theorem Part.setPresence_order (p : Part) (c : Crane) (b : Bed) (r : Presence) (x : OrderNo) : (p.setPresence c b r).order x = p.order x := rfl
@[simp] theorem Part.setPresence_orderQueue (p : Part) (c : Crane) (b : Bed) (r : Presence) (x : Crane) : (p.setPresence c b r).orderQueue x = p.orderQueue x := rfl
@[simp] theorem Part.setPresence_slot (p : Part) (c : Crane) (b : Bed) (r : Presence) (x : SlotNo) : (p.setPresence c b r).slot x = p.slot x := rfl
@[simp] theorem Part.setPresence_station (p : Part) (c : Crane) (b : Bed) (r : Presence) (x : Station) : (p.setPresence c b r).station x = p.station x := rfl
@[simp] theorem Part.setPresence_pass (p : Part) (c : Crane) (b : Bed) (r : Presence) (x : Station) : (p.setPresence c b r).pass x = p.pass x := rfl
@[simp] theorem Part.setJob_hmp (p : Part) (j : JobNo) (r : JobEntry) : (p.setJob j r).hmp = p.hmp := rfl
@[simp] theorem Part.setJob_bds (p : Part) (j : JobNo) (r : JobEntry) : (p.setJob j r).bds = p.bds := rfl
@[simp] theorem Part.setJob_mks (p : Part) (j : JobNo) (r : JobEntry) : (p.setJob j r).mks = p.mks := rfl
@[simp] theorem Part.setJob_cou (p : Part) (j : JobNo) (r : JobEntry) : (p.setJob j r).cou = p.cou := rfl
@[simp] theorem Part.setJob_rsu (p : Part) (j : JobNo) (r : JobEntry) : (p.setJob j r).rsu = p.rsu := rfl
@[simp] theorem Part.setJob_flp (p : Part) (j : JobNo) (r : JobEntry) : (p.setJob j r).flp = p.flp := rfl
@[simp] theorem Part.setJob_ofp (p : Part) (j : JobNo) (r : JobEntry) : (p.setJob j r).ofp = p.ofp := rfl
@[simp] theorem Part.setJob_agenda (p : Part) (j : JobNo) (r : JobEntry) : (p.setJob j r).agenda = p.agenda := rfl
@[simp] theorem Part.setJob_jst_mem (p : Part) (j : JobNo) (r : JobEntry) : (p.setJob j r).jst.mem = p.jst.mem := rfl
@[simp] theorem Part.setJob_jst_pool (p : Part) (j : JobNo) (r : JobEntry) : (p.setJob j r).jst.pool = p.jst.pool := rfl
@[simp] theorem Part.setJob_jst_queues (p : Part) (j : JobNo) (r : JobEntry) : (p.setJob j r).jst.queues = p.jst.queues := rfl
@[simp] theorem Part.setJob_jst_completions (p : Part) (j : JobNo) (r : JobEntry) : (p.setJob j r).jst.completions = p.jst.completions := rfl
@[simp] theorem Part.setJob_bed (p : Part) (j : JobNo) (r : JobEntry) (x : Bed) : (p.setJob j r).bed x = p.bed x := rfl
@[simp] theorem Part.setJob_crane (p : Part) (j : JobNo) (r : JobEntry) (x : Crane) : (p.setJob j r).crane x = p.crane x := rfl
@[simp] theorem Part.setJob_presence (p : Part) (j : JobNo) (r : JobEntry) (x : Crane) (y : Bed) : (p.setJob j r).presence x y = p.presence x y := rfl
@[simp] theorem Part.setJob_queue (p : Part) (j : JobNo) (r : JobEntry) (x : Gantry) : (p.setJob j r).queue x = p.queue x := rfl
@[simp] theorem Part.setJob_engine (p : Part) (j : JobNo) (r : JobEntry) (x : Gantry) : (p.setJob j r).engine x = p.engine x := rfl
@[simp] theorem Part.setJob_registration (p : Part) (j : JobNo) (r : JobEntry) (x : Gantry) : (p.setJob j r).registration x = p.registration x := rfl
@[simp] theorem Part.setJob_params (p : Part) (j : JobNo) (r : JobEntry) (x : Gantry) : (p.setJob j r).params x = p.params x := rfl
@[simp] theorem Part.setJob_marks (p : Part) (j : JobNo) (r : JobEntry) (x : Gantry) : (p.setJob j r).marks x = p.marks x := rfl
@[simp] theorem Part.setJob_order (p : Part) (j : JobNo) (r : JobEntry) (x : OrderNo) : (p.setJob j r).order x = p.order x := rfl
@[simp] theorem Part.setJob_orderQueue (p : Part) (j : JobNo) (r : JobEntry) (x : Crane) : (p.setJob j r).orderQueue x = p.orderQueue x := rfl
@[simp] theorem Part.setJob_slot (p : Part) (j : JobNo) (r : JobEntry) (x : SlotNo) : (p.setJob j r).slot x = p.slot x := rfl
@[simp] theorem Part.setJob_station (p : Part) (j : JobNo) (r : JobEntry) (x : Station) : (p.setJob j r).station x = p.station x := rfl
@[simp] theorem Part.setJob_pass (p : Part) (j : JobNo) (r : JobEntry) (x : Station) : (p.setJob j r).pass x = p.pass x := rfl
@[simp] theorem Part.setQueue_hmp (p : Part) (g : Gantry) (q : List JobNo) : (p.setQueue g q).hmp = p.hmp := rfl
@[simp] theorem Part.setQueue_bds (p : Part) (g : Gantry) (q : List JobNo) : (p.setQueue g q).bds = p.bds := rfl
@[simp] theorem Part.setQueue_mks (p : Part) (g : Gantry) (q : List JobNo) : (p.setQueue g q).mks = p.mks := rfl
@[simp] theorem Part.setQueue_cou (p : Part) (g : Gantry) (q : List JobNo) : (p.setQueue g q).cou = p.cou := rfl
@[simp] theorem Part.setQueue_rsu (p : Part) (g : Gantry) (q : List JobNo) : (p.setQueue g q).rsu = p.rsu := rfl
@[simp] theorem Part.setQueue_flp (p : Part) (g : Gantry) (q : List JobNo) : (p.setQueue g q).flp = p.flp := rfl
@[simp] theorem Part.setQueue_ofp (p : Part) (g : Gantry) (q : List JobNo) : (p.setQueue g q).ofp = p.ofp := rfl
@[simp] theorem Part.setQueue_agenda (p : Part) (g : Gantry) (q : List JobNo) : (p.setQueue g q).agenda = p.agenda := rfl
@[simp] theorem Part.setQueue_jst_mem (p : Part) (g : Gantry) (q : List JobNo) : (p.setQueue g q).jst.mem = p.jst.mem := rfl
@[simp] theorem Part.setQueue_jst_pool (p : Part) (g : Gantry) (q : List JobNo) : (p.setQueue g q).jst.pool = p.jst.pool := rfl
@[simp] theorem Part.setQueue_jst_jobs (p : Part) (g : Gantry) (q : List JobNo) : (p.setQueue g q).jst.jobs = p.jst.jobs := rfl
@[simp] theorem Part.setQueue_jst_completions (p : Part) (g : Gantry) (q : List JobNo) : (p.setQueue g q).jst.completions = p.jst.completions := rfl
@[simp] theorem Part.setQueue_bed (p : Part) (g : Gantry) (q : List JobNo) (x : Bed) : (p.setQueue g q).bed x = p.bed x := rfl
@[simp] theorem Part.setQueue_crane (p : Part) (g : Gantry) (q : List JobNo) (x : Crane) : (p.setQueue g q).crane x = p.crane x := rfl
@[simp] theorem Part.setQueue_presence (p : Part) (g : Gantry) (q : List JobNo) (x : Crane) (y : Bed) : (p.setQueue g q).presence x y = p.presence x y := rfl
@[simp] theorem Part.setQueue_job (p : Part) (g : Gantry) (q : List JobNo) (x : JobNo) : (p.setQueue g q).job x = p.job x := rfl
@[simp] theorem Part.setQueue_engine (p : Part) (g : Gantry) (q : List JobNo) (x : Gantry) : (p.setQueue g q).engine x = p.engine x := rfl
@[simp] theorem Part.setQueue_registration (p : Part) (g : Gantry) (q : List JobNo) (x : Gantry) : (p.setQueue g q).registration x = p.registration x := rfl
@[simp] theorem Part.setQueue_params (p : Part) (g : Gantry) (q : List JobNo) (x : Gantry) : (p.setQueue g q).params x = p.params x := rfl
@[simp] theorem Part.setQueue_marks (p : Part) (g : Gantry) (q : List JobNo) (x : Gantry) : (p.setQueue g q).marks x = p.marks x := rfl
@[simp] theorem Part.setQueue_order (p : Part) (g : Gantry) (q : List JobNo) (x : OrderNo) : (p.setQueue g q).order x = p.order x := rfl
@[simp] theorem Part.setQueue_orderQueue (p : Part) (g : Gantry) (q : List JobNo) (x : Crane) : (p.setQueue g q).orderQueue x = p.orderQueue x := rfl
@[simp] theorem Part.setQueue_slot (p : Part) (g : Gantry) (q : List JobNo) (x : SlotNo) : (p.setQueue g q).slot x = p.slot x := rfl
@[simp] theorem Part.setQueue_station (p : Part) (g : Gantry) (q : List JobNo) (x : Station) : (p.setQueue g q).station x = p.station x := rfl
@[simp] theorem Part.setQueue_pass (p : Part) (g : Gantry) (q : List JobNo) (x : Station) : (p.setQueue g q).pass x = p.pass x := rfl
@[simp] theorem Part.setEngine_hmp (p : Part) (g : Gantry) (e : Engine) : (p.setEngine g e).hmp = p.hmp := rfl
@[simp] theorem Part.setEngine_jst (p : Part) (g : Gantry) (e : Engine) : (p.setEngine g e).jst = p.jst := rfl
@[simp] theorem Part.setEngine_mks (p : Part) (g : Gantry) (e : Engine) : (p.setEngine g e).mks = p.mks := rfl
@[simp] theorem Part.setEngine_cou (p : Part) (g : Gantry) (e : Engine) : (p.setEngine g e).cou = p.cou := rfl
@[simp] theorem Part.setEngine_rsu (p : Part) (g : Gantry) (e : Engine) : (p.setEngine g e).rsu = p.rsu := rfl
@[simp] theorem Part.setEngine_flp (p : Part) (g : Gantry) (e : Engine) : (p.setEngine g e).flp = p.flp := rfl
@[simp] theorem Part.setEngine_ofp (p : Part) (g : Gantry) (e : Engine) : (p.setEngine g e).ofp = p.ofp := rfl
@[simp] theorem Part.setEngine_agenda (p : Part) (g : Gantry) (e : Engine) : (p.setEngine g e).agenda = p.agenda := rfl
@[simp] theorem Part.setEngine_bds_registrations (p : Part) (g : Gantry) (e : Engine) : (p.setEngine g e).bds.registrations = p.bds.registrations := rfl
@[simp] theorem Part.setEngine_bds_params (p : Part) (g : Gantry) (e : Engine) : (p.setEngine g e).bds.params = p.bds.params := rfl
@[simp] theorem Part.setEngine_bed (p : Part) (g : Gantry) (e : Engine) (x : Bed) : (p.setEngine g e).bed x = p.bed x := rfl
@[simp] theorem Part.setEngine_crane (p : Part) (g : Gantry) (e : Engine) (x : Crane) : (p.setEngine g e).crane x = p.crane x := rfl
@[simp] theorem Part.setEngine_presence (p : Part) (g : Gantry) (e : Engine) (x : Crane) (y : Bed) : (p.setEngine g e).presence x y = p.presence x y := rfl
@[simp] theorem Part.setEngine_job (p : Part) (g : Gantry) (e : Engine) (x : JobNo) : (p.setEngine g e).job x = p.job x := rfl
@[simp] theorem Part.setEngine_queue (p : Part) (g : Gantry) (e : Engine) (x : Gantry) : (p.setEngine g e).queue x = p.queue x := rfl
@[simp] theorem Part.setEngine_registration (p : Part) (g : Gantry) (e : Engine) (x : Gantry) : (p.setEngine g e).registration x = p.registration x := rfl
@[simp] theorem Part.setEngine_params (p : Part) (g : Gantry) (e : Engine) (x : Gantry) : (p.setEngine g e).params x = p.params x := rfl
@[simp] theorem Part.setEngine_marks (p : Part) (g : Gantry) (e : Engine) (x : Gantry) : (p.setEngine g e).marks x = p.marks x := rfl
@[simp] theorem Part.setEngine_order (p : Part) (g : Gantry) (e : Engine) (x : OrderNo) : (p.setEngine g e).order x = p.order x := rfl
@[simp] theorem Part.setEngine_orderQueue (p : Part) (g : Gantry) (e : Engine) (x : Crane) : (p.setEngine g e).orderQueue x = p.orderQueue x := rfl
@[simp] theorem Part.setEngine_slot (p : Part) (g : Gantry) (e : Engine) (x : SlotNo) : (p.setEngine g e).slot x = p.slot x := rfl
@[simp] theorem Part.setEngine_station (p : Part) (g : Gantry) (e : Engine) (x : Station) : (p.setEngine g e).station x = p.station x := rfl
@[simp] theorem Part.setEngine_pass (p : Part) (g : Gantry) (e : Engine) (x : Station) : (p.setEngine g e).pass x = p.pass x := rfl
@[simp] theorem Part.setRegistration_hmp (p : Part) (g : Gantry) (r : Option Registration) : (p.setRegistration g r).hmp = p.hmp := rfl
@[simp] theorem Part.setRegistration_jst (p : Part) (g : Gantry) (r : Option Registration) : (p.setRegistration g r).jst = p.jst := rfl
@[simp] theorem Part.setRegistration_mks (p : Part) (g : Gantry) (r : Option Registration) : (p.setRegistration g r).mks = p.mks := rfl
@[simp] theorem Part.setRegistration_cou (p : Part) (g : Gantry) (r : Option Registration) : (p.setRegistration g r).cou = p.cou := rfl
@[simp] theorem Part.setRegistration_rsu (p : Part) (g : Gantry) (r : Option Registration) : (p.setRegistration g r).rsu = p.rsu := rfl
@[simp] theorem Part.setRegistration_flp (p : Part) (g : Gantry) (r : Option Registration) : (p.setRegistration g r).flp = p.flp := rfl
@[simp] theorem Part.setRegistration_ofp (p : Part) (g : Gantry) (r : Option Registration) : (p.setRegistration g r).ofp = p.ofp := rfl
@[simp] theorem Part.setRegistration_agenda (p : Part) (g : Gantry) (r : Option Registration) : (p.setRegistration g r).agenda = p.agenda := rfl
@[simp] theorem Part.setRegistration_bds_engines (p : Part) (g : Gantry) (r : Option Registration) : (p.setRegistration g r).bds.engines = p.bds.engines := rfl
@[simp] theorem Part.setRegistration_bds_params (p : Part) (g : Gantry) (r : Option Registration) : (p.setRegistration g r).bds.params = p.bds.params := rfl
@[simp] theorem Part.setRegistration_bed (p : Part) (g : Gantry) (r : Option Registration) (x : Bed) : (p.setRegistration g r).bed x = p.bed x := rfl
@[simp] theorem Part.setRegistration_crane (p : Part) (g : Gantry) (r : Option Registration) (x : Crane) : (p.setRegistration g r).crane x = p.crane x := rfl
@[simp] theorem Part.setRegistration_presence (p : Part) (g : Gantry) (r : Option Registration) (x : Crane) (y : Bed) : (p.setRegistration g r).presence x y = p.presence x y := rfl
@[simp] theorem Part.setRegistration_job (p : Part) (g : Gantry) (r : Option Registration) (x : JobNo) : (p.setRegistration g r).job x = p.job x := rfl
@[simp] theorem Part.setRegistration_queue (p : Part) (g : Gantry) (r : Option Registration) (x : Gantry) : (p.setRegistration g r).queue x = p.queue x := rfl
@[simp] theorem Part.setRegistration_engine (p : Part) (g : Gantry) (r : Option Registration) (x : Gantry) : (p.setRegistration g r).engine x = p.engine x := rfl
@[simp] theorem Part.setRegistration_params (p : Part) (g : Gantry) (r : Option Registration) (x : Gantry) : (p.setRegistration g r).params x = p.params x := rfl
@[simp] theorem Part.setRegistration_marks (p : Part) (g : Gantry) (r : Option Registration) (x : Gantry) : (p.setRegistration g r).marks x = p.marks x := rfl
@[simp] theorem Part.setRegistration_order (p : Part) (g : Gantry) (r : Option Registration) (x : OrderNo) : (p.setRegistration g r).order x = p.order x := rfl
@[simp] theorem Part.setRegistration_orderQueue (p : Part) (g : Gantry) (r : Option Registration) (x : Crane) : (p.setRegistration g r).orderQueue x = p.orderQueue x := rfl
@[simp] theorem Part.setRegistration_slot (p : Part) (g : Gantry) (r : Option Registration) (x : SlotNo) : (p.setRegistration g r).slot x = p.slot x := rfl
@[simp] theorem Part.setRegistration_station (p : Part) (g : Gantry) (r : Option Registration) (x : Station) : (p.setRegistration g r).station x = p.station x := rfl
@[simp] theorem Part.setRegistration_pass (p : Part) (g : Gantry) (r : Option Registration) (x : Station) : (p.setRegistration g r).pass x = p.pass x := rfl
@[simp] theorem Part.setParams_hmp (p : Part) (g : Gantry) (r : GantryParams) : (p.setParams g r).hmp = p.hmp := rfl
@[simp] theorem Part.setParams_jst (p : Part) (g : Gantry) (r : GantryParams) : (p.setParams g r).jst = p.jst := rfl
@[simp] theorem Part.setParams_mks (p : Part) (g : Gantry) (r : GantryParams) : (p.setParams g r).mks = p.mks := rfl
@[simp] theorem Part.setParams_cou (p : Part) (g : Gantry) (r : GantryParams) : (p.setParams g r).cou = p.cou := rfl
@[simp] theorem Part.setParams_rsu (p : Part) (g : Gantry) (r : GantryParams) : (p.setParams g r).rsu = p.rsu := rfl
@[simp] theorem Part.setParams_flp (p : Part) (g : Gantry) (r : GantryParams) : (p.setParams g r).flp = p.flp := rfl
@[simp] theorem Part.setParams_ofp (p : Part) (g : Gantry) (r : GantryParams) : (p.setParams g r).ofp = p.ofp := rfl
@[simp] theorem Part.setParams_agenda (p : Part) (g : Gantry) (r : GantryParams) : (p.setParams g r).agenda = p.agenda := rfl
@[simp] theorem Part.setParams_bds_engines (p : Part) (g : Gantry) (r : GantryParams) : (p.setParams g r).bds.engines = p.bds.engines := rfl
@[simp] theorem Part.setParams_bds_registrations (p : Part) (g : Gantry) (r : GantryParams) : (p.setParams g r).bds.registrations = p.bds.registrations := rfl
@[simp] theorem Part.setParams_bed (p : Part) (g : Gantry) (r : GantryParams) (x : Bed) : (p.setParams g r).bed x = p.bed x := rfl
@[simp] theorem Part.setParams_crane (p : Part) (g : Gantry) (r : GantryParams) (x : Crane) : (p.setParams g r).crane x = p.crane x := rfl
@[simp] theorem Part.setParams_presence (p : Part) (g : Gantry) (r : GantryParams) (x : Crane) (y : Bed) : (p.setParams g r).presence x y = p.presence x y := rfl
@[simp] theorem Part.setParams_job (p : Part) (g : Gantry) (r : GantryParams) (x : JobNo) : (p.setParams g r).job x = p.job x := rfl
@[simp] theorem Part.setParams_queue (p : Part) (g : Gantry) (r : GantryParams) (x : Gantry) : (p.setParams g r).queue x = p.queue x := rfl
@[simp] theorem Part.setParams_engine (p : Part) (g : Gantry) (r : GantryParams) (x : Gantry) : (p.setParams g r).engine x = p.engine x := rfl
@[simp] theorem Part.setParams_registration (p : Part) (g : Gantry) (r : GantryParams) (x : Gantry) : (p.setParams g r).registration x = p.registration x := rfl
@[simp] theorem Part.setParams_marks (p : Part) (g : Gantry) (r : GantryParams) (x : Gantry) : (p.setParams g r).marks x = p.marks x := rfl
@[simp] theorem Part.setParams_order (p : Part) (g : Gantry) (r : GantryParams) (x : OrderNo) : (p.setParams g r).order x = p.order x := rfl
@[simp] theorem Part.setParams_orderQueue (p : Part) (g : Gantry) (r : GantryParams) (x : Crane) : (p.setParams g r).orderQueue x = p.orderQueue x := rfl
@[simp] theorem Part.setParams_slot (p : Part) (g : Gantry) (r : GantryParams) (x : SlotNo) : (p.setParams g r).slot x = p.slot x := rfl
@[simp] theorem Part.setParams_station (p : Part) (g : Gantry) (r : GantryParams) (x : Station) : (p.setParams g r).station x = p.station x := rfl
@[simp] theorem Part.setParams_pass (p : Part) (g : Gantry) (r : GantryParams) (x : Station) : (p.setParams g r).pass x = p.pass x := rfl
@[simp] theorem Part.setMarks_hmp (p : Part) (g : Gantry) (m : MarkContext) : (p.setMarks g m).hmp = p.hmp := rfl
@[simp] theorem Part.setMarks_jst (p : Part) (g : Gantry) (m : MarkContext) : (p.setMarks g m).jst = p.jst := rfl
@[simp] theorem Part.setMarks_bds (p : Part) (g : Gantry) (m : MarkContext) : (p.setMarks g m).bds = p.bds := rfl
@[simp] theorem Part.setMarks_cou (p : Part) (g : Gantry) (m : MarkContext) : (p.setMarks g m).cou = p.cou := rfl
@[simp] theorem Part.setMarks_rsu (p : Part) (g : Gantry) (m : MarkContext) : (p.setMarks g m).rsu = p.rsu := rfl
@[simp] theorem Part.setMarks_flp (p : Part) (g : Gantry) (m : MarkContext) : (p.setMarks g m).flp = p.flp := rfl
@[simp] theorem Part.setMarks_ofp (p : Part) (g : Gantry) (m : MarkContext) : (p.setMarks g m).ofp = p.ofp := rfl
@[simp] theorem Part.setMarks_agenda (p : Part) (g : Gantry) (m : MarkContext) : (p.setMarks g m).agenda = p.agenda := rfl
@[simp] theorem Part.setMarks_bed (p : Part) (g : Gantry) (m : MarkContext) (x : Bed) : (p.setMarks g m).bed x = p.bed x := rfl
@[simp] theorem Part.setMarks_crane (p : Part) (g : Gantry) (m : MarkContext) (x : Crane) : (p.setMarks g m).crane x = p.crane x := rfl
@[simp] theorem Part.setMarks_presence (p : Part) (g : Gantry) (m : MarkContext) (x : Crane) (y : Bed) : (p.setMarks g m).presence x y = p.presence x y := rfl
@[simp] theorem Part.setMarks_job (p : Part) (g : Gantry) (m : MarkContext) (x : JobNo) : (p.setMarks g m).job x = p.job x := rfl
@[simp] theorem Part.setMarks_queue (p : Part) (g : Gantry) (m : MarkContext) (x : Gantry) : (p.setMarks g m).queue x = p.queue x := rfl
@[simp] theorem Part.setMarks_engine (p : Part) (g : Gantry) (m : MarkContext) (x : Gantry) : (p.setMarks g m).engine x = p.engine x := rfl
@[simp] theorem Part.setMarks_registration (p : Part) (g : Gantry) (m : MarkContext) (x : Gantry) : (p.setMarks g m).registration x = p.registration x := rfl
@[simp] theorem Part.setMarks_params (p : Part) (g : Gantry) (m : MarkContext) (x : Gantry) : (p.setMarks g m).params x = p.params x := rfl
@[simp] theorem Part.setMarks_order (p : Part) (g : Gantry) (m : MarkContext) (x : OrderNo) : (p.setMarks g m).order x = p.order x := rfl
@[simp] theorem Part.setMarks_orderQueue (p : Part) (g : Gantry) (m : MarkContext) (x : Crane) : (p.setMarks g m).orderQueue x = p.orderQueue x := rfl
@[simp] theorem Part.setMarks_slot (p : Part) (g : Gantry) (m : MarkContext) (x : SlotNo) : (p.setMarks g m).slot x = p.slot x := rfl
@[simp] theorem Part.setMarks_station (p : Part) (g : Gantry) (m : MarkContext) (x : Station) : (p.setMarks g m).station x = p.station x := rfl
@[simp] theorem Part.setMarks_pass (p : Part) (g : Gantry) (m : MarkContext) (x : Station) : (p.setMarks g m).pass x = p.pass x := rfl
@[simp] theorem Part.setOrder_hmp (p : Part) (n : OrderNo) (o : Option Order) : (p.setOrder n o).hmp = p.hmp := rfl
@[simp] theorem Part.setOrder_jst (p : Part) (n : OrderNo) (o : Option Order) : (p.setOrder n o).jst = p.jst := rfl
@[simp] theorem Part.setOrder_bds (p : Part) (n : OrderNo) (o : Option Order) : (p.setOrder n o).bds = p.bds := rfl
@[simp] theorem Part.setOrder_mks (p : Part) (n : OrderNo) (o : Option Order) : (p.setOrder n o).mks = p.mks := rfl
@[simp] theorem Part.setOrder_rsu (p : Part) (n : OrderNo) (o : Option Order) : (p.setOrder n o).rsu = p.rsu := rfl
@[simp] theorem Part.setOrder_flp (p : Part) (n : OrderNo) (o : Option Order) : (p.setOrder n o).flp = p.flp := rfl
@[simp] theorem Part.setOrder_ofp (p : Part) (n : OrderNo) (o : Option Order) : (p.setOrder n o).ofp = p.ofp := rfl
@[simp] theorem Part.setOrder_agenda (p : Part) (n : OrderNo) (o : Option Order) : (p.setOrder n o).agenda = p.agenda := rfl
@[simp] theorem Part.setOrder_cou_queues (p : Part) (n : OrderNo) (o : Option Order) : (p.setOrder n o).cou.queues = p.cou.queues := rfl
@[simp] theorem Part.setOrder_bed (p : Part) (n : OrderNo) (o : Option Order) (x : Bed) : (p.setOrder n o).bed x = p.bed x := rfl
@[simp] theorem Part.setOrder_crane (p : Part) (n : OrderNo) (o : Option Order) (x : Crane) : (p.setOrder n o).crane x = p.crane x := rfl
@[simp] theorem Part.setOrder_presence (p : Part) (n : OrderNo) (o : Option Order) (x : Crane) (y : Bed) : (p.setOrder n o).presence x y = p.presence x y := rfl
@[simp] theorem Part.setOrder_job (p : Part) (n : OrderNo) (o : Option Order) (x : JobNo) : (p.setOrder n o).job x = p.job x := rfl
@[simp] theorem Part.setOrder_queue (p : Part) (n : OrderNo) (o : Option Order) (x : Gantry) : (p.setOrder n o).queue x = p.queue x := rfl
@[simp] theorem Part.setOrder_engine (p : Part) (n : OrderNo) (o : Option Order) (x : Gantry) : (p.setOrder n o).engine x = p.engine x := rfl
@[simp] theorem Part.setOrder_registration (p : Part) (n : OrderNo) (o : Option Order) (x : Gantry) : (p.setOrder n o).registration x = p.registration x := rfl
@[simp] theorem Part.setOrder_params (p : Part) (n : OrderNo) (o : Option Order) (x : Gantry) : (p.setOrder n o).params x = p.params x := rfl
@[simp] theorem Part.setOrder_marks (p : Part) (n : OrderNo) (o : Option Order) (x : Gantry) : (p.setOrder n o).marks x = p.marks x := rfl
@[simp] theorem Part.setOrder_orderQueue (p : Part) (n : OrderNo) (o : Option Order) (x : Crane) : (p.setOrder n o).orderQueue x = p.orderQueue x := rfl
@[simp] theorem Part.setOrder_slot (p : Part) (n : OrderNo) (o : Option Order) (x : SlotNo) : (p.setOrder n o).slot x = p.slot x := rfl
@[simp] theorem Part.setOrder_station (p : Part) (n : OrderNo) (o : Option Order) (x : Station) : (p.setOrder n o).station x = p.station x := rfl
@[simp] theorem Part.setOrder_pass (p : Part) (n : OrderNo) (o : Option Order) (x : Station) : (p.setOrder n o).pass x = p.pass x := rfl
@[simp] theorem Part.setOrderQueue_hmp (p : Part) (c : Crane) (q : List OrderNo) : (p.setOrderQueue c q).hmp = p.hmp := rfl
@[simp] theorem Part.setOrderQueue_jst (p : Part) (c : Crane) (q : List OrderNo) : (p.setOrderQueue c q).jst = p.jst := rfl
@[simp] theorem Part.setOrderQueue_bds (p : Part) (c : Crane) (q : List OrderNo) : (p.setOrderQueue c q).bds = p.bds := rfl
@[simp] theorem Part.setOrderQueue_mks (p : Part) (c : Crane) (q : List OrderNo) : (p.setOrderQueue c q).mks = p.mks := rfl
@[simp] theorem Part.setOrderQueue_rsu (p : Part) (c : Crane) (q : List OrderNo) : (p.setOrderQueue c q).rsu = p.rsu := rfl
@[simp] theorem Part.setOrderQueue_flp (p : Part) (c : Crane) (q : List OrderNo) : (p.setOrderQueue c q).flp = p.flp := rfl
@[simp] theorem Part.setOrderQueue_ofp (p : Part) (c : Crane) (q : List OrderNo) : (p.setOrderQueue c q).ofp = p.ofp := rfl
@[simp] theorem Part.setOrderQueue_agenda (p : Part) (c : Crane) (q : List OrderNo) : (p.setOrderQueue c q).agenda = p.agenda := rfl
@[simp] theorem Part.setOrderQueue_cou_orders (p : Part) (c : Crane) (q : List OrderNo) : (p.setOrderQueue c q).cou.orders = p.cou.orders := rfl
@[simp] theorem Part.setOrderQueue_bed (p : Part) (c : Crane) (q : List OrderNo) (x : Bed) : (p.setOrderQueue c q).bed x = p.bed x := rfl
@[simp] theorem Part.setOrderQueue_crane (p : Part) (c : Crane) (q : List OrderNo) (x : Crane) : (p.setOrderQueue c q).crane x = p.crane x := rfl
@[simp] theorem Part.setOrderQueue_presence (p : Part) (c : Crane) (q : List OrderNo) (x : Crane) (y : Bed) : (p.setOrderQueue c q).presence x y = p.presence x y := rfl
@[simp] theorem Part.setOrderQueue_job (p : Part) (c : Crane) (q : List OrderNo) (x : JobNo) : (p.setOrderQueue c q).job x = p.job x := rfl
@[simp] theorem Part.setOrderQueue_queue (p : Part) (c : Crane) (q : List OrderNo) (x : Gantry) : (p.setOrderQueue c q).queue x = p.queue x := rfl
@[simp] theorem Part.setOrderQueue_engine (p : Part) (c : Crane) (q : List OrderNo) (x : Gantry) : (p.setOrderQueue c q).engine x = p.engine x := rfl
@[simp] theorem Part.setOrderQueue_registration (p : Part) (c : Crane) (q : List OrderNo) (x : Gantry) : (p.setOrderQueue c q).registration x = p.registration x := rfl
@[simp] theorem Part.setOrderQueue_params (p : Part) (c : Crane) (q : List OrderNo) (x : Gantry) : (p.setOrderQueue c q).params x = p.params x := rfl
@[simp] theorem Part.setOrderQueue_marks (p : Part) (c : Crane) (q : List OrderNo) (x : Gantry) : (p.setOrderQueue c q).marks x = p.marks x := rfl
@[simp] theorem Part.setOrderQueue_order (p : Part) (c : Crane) (q : List OrderNo) (x : OrderNo) : (p.setOrderQueue c q).order x = p.order x := rfl
@[simp] theorem Part.setOrderQueue_slot (p : Part) (c : Crane) (q : List OrderNo) (x : SlotNo) : (p.setOrderQueue c q).slot x = p.slot x := rfl
@[simp] theorem Part.setOrderQueue_station (p : Part) (c : Crane) (q : List OrderNo) (x : Station) : (p.setOrderQueue c q).station x = p.station x := rfl
@[simp] theorem Part.setOrderQueue_pass (p : Part) (c : Crane) (q : List OrderNo) (x : Station) : (p.setOrderQueue c q).pass x = p.pass x := rfl
@[simp] theorem Part.setSlot_hmp (p : Part) (k : SlotNo) (r : SlotRec) : (p.setSlot k r).hmp = p.hmp := rfl
@[simp] theorem Part.setSlot_jst (p : Part) (k : SlotNo) (r : SlotRec) : (p.setSlot k r).jst = p.jst := rfl
@[simp] theorem Part.setSlot_bds (p : Part) (k : SlotNo) (r : SlotRec) : (p.setSlot k r).bds = p.bds := rfl
@[simp] theorem Part.setSlot_mks (p : Part) (k : SlotNo) (r : SlotRec) : (p.setSlot k r).mks = p.mks := rfl
@[simp] theorem Part.setSlot_cou (p : Part) (k : SlotNo) (r : SlotRec) : (p.setSlot k r).cou = p.cou := rfl
@[simp] theorem Part.setSlot_flp (p : Part) (k : SlotNo) (r : SlotRec) : (p.setSlot k r).flp = p.flp := rfl
@[simp] theorem Part.setSlot_ofp (p : Part) (k : SlotNo) (r : SlotRec) : (p.setSlot k r).ofp = p.ofp := rfl
@[simp] theorem Part.setSlot_agenda (p : Part) (k : SlotNo) (r : SlotRec) : (p.setSlot k r).agenda = p.agenda := rfl
@[simp] theorem Part.setSlot_rsu_remnants (p : Part) (k : SlotNo) (r : SlotRec) : (p.setSlot k r).rsu.remnants = p.rsu.remnants := rfl
@[simp] theorem Part.setSlot_rsu_sequence (p : Part) (k : SlotNo) (r : SlotRec) : (p.setSlot k r).rsu.sequence = p.rsu.sequence := rfl
@[simp] theorem Part.setSlot_rsu_digPenalty (p : Part) (k : SlotNo) (r : SlotRec) : (p.setSlot k r).rsu.digPenalty = p.rsu.digPenalty := rfl
@[simp] theorem Part.setSlot_rsu_digReserve (p : Part) (k : SlotNo) (r : SlotRec) : (p.setSlot k r).rsu.digReserve = p.rsu.digReserve := rfl
@[simp] theorem Part.setSlot_rsu_minSize (p : Part) (k : SlotNo) (r : SlotRec) : (p.setSlot k r).rsu.minSize = p.rsu.minSize := rfl
@[simp] theorem Part.setSlot_bed (p : Part) (k : SlotNo) (r : SlotRec) (x : Bed) : (p.setSlot k r).bed x = p.bed x := rfl
@[simp] theorem Part.setSlot_crane (p : Part) (k : SlotNo) (r : SlotRec) (x : Crane) : (p.setSlot k r).crane x = p.crane x := rfl
@[simp] theorem Part.setSlot_presence (p : Part) (k : SlotNo) (r : SlotRec) (x : Crane) (y : Bed) : (p.setSlot k r).presence x y = p.presence x y := rfl
@[simp] theorem Part.setSlot_job (p : Part) (k : SlotNo) (r : SlotRec) (x : JobNo) : (p.setSlot k r).job x = p.job x := rfl
@[simp] theorem Part.setSlot_queue (p : Part) (k : SlotNo) (r : SlotRec) (x : Gantry) : (p.setSlot k r).queue x = p.queue x := rfl
@[simp] theorem Part.setSlot_engine (p : Part) (k : SlotNo) (r : SlotRec) (x : Gantry) : (p.setSlot k r).engine x = p.engine x := rfl
@[simp] theorem Part.setSlot_registration (p : Part) (k : SlotNo) (r : SlotRec) (x : Gantry) : (p.setSlot k r).registration x = p.registration x := rfl
@[simp] theorem Part.setSlot_params (p : Part) (k : SlotNo) (r : SlotRec) (x : Gantry) : (p.setSlot k r).params x = p.params x := rfl
@[simp] theorem Part.setSlot_marks (p : Part) (k : SlotNo) (r : SlotRec) (x : Gantry) : (p.setSlot k r).marks x = p.marks x := rfl
@[simp] theorem Part.setSlot_order (p : Part) (k : SlotNo) (r : SlotRec) (x : OrderNo) : (p.setSlot k r).order x = p.order x := rfl
@[simp] theorem Part.setSlot_orderQueue (p : Part) (k : SlotNo) (r : SlotRec) (x : Crane) : (p.setSlot k r).orderQueue x = p.orderQueue x := rfl
@[simp] theorem Part.setSlot_station (p : Part) (k : SlotNo) (r : SlotRec) (x : Station) : (p.setSlot k r).station x = p.station x := rfl
@[simp] theorem Part.setSlot_pass (p : Part) (k : SlotNo) (r : SlotRec) (x : Station) : (p.setSlot k r).pass x = p.pass x := rfl
@[simp] theorem Part.setRemnants_hmp (p : Part) (rs : List Remnant) : (p.setRemnants rs).hmp = p.hmp := rfl
@[simp] theorem Part.setRemnants_jst (p : Part) (rs : List Remnant) : (p.setRemnants rs).jst = p.jst := rfl
@[simp] theorem Part.setRemnants_bds (p : Part) (rs : List Remnant) : (p.setRemnants rs).bds = p.bds := rfl
@[simp] theorem Part.setRemnants_mks (p : Part) (rs : List Remnant) : (p.setRemnants rs).mks = p.mks := rfl
@[simp] theorem Part.setRemnants_cou (p : Part) (rs : List Remnant) : (p.setRemnants rs).cou = p.cou := rfl
@[simp] theorem Part.setRemnants_flp (p : Part) (rs : List Remnant) : (p.setRemnants rs).flp = p.flp := rfl
@[simp] theorem Part.setRemnants_ofp (p : Part) (rs : List Remnant) : (p.setRemnants rs).ofp = p.ofp := rfl
@[simp] theorem Part.setRemnants_agenda (p : Part) (rs : List Remnant) : (p.setRemnants rs).agenda = p.agenda := rfl
@[simp] theorem Part.setRemnants_rsu_slots (p : Part) (rs : List Remnant) : (p.setRemnants rs).rsu.slots = p.rsu.slots := rfl
@[simp] theorem Part.setRemnants_rsu_sequence (p : Part) (rs : List Remnant) : (p.setRemnants rs).rsu.sequence = p.rsu.sequence := rfl
@[simp] theorem Part.setRemnants_rsu_digPenalty (p : Part) (rs : List Remnant) : (p.setRemnants rs).rsu.digPenalty = p.rsu.digPenalty := rfl
@[simp] theorem Part.setRemnants_rsu_digReserve (p : Part) (rs : List Remnant) : (p.setRemnants rs).rsu.digReserve = p.rsu.digReserve := rfl
@[simp] theorem Part.setRemnants_rsu_minSize (p : Part) (rs : List Remnant) : (p.setRemnants rs).rsu.minSize = p.rsu.minSize := rfl
@[simp] theorem Part.setRemnants_bed (p : Part) (rs : List Remnant) (x : Bed) : (p.setRemnants rs).bed x = p.bed x := rfl
@[simp] theorem Part.setRemnants_crane (p : Part) (rs : List Remnant) (x : Crane) : (p.setRemnants rs).crane x = p.crane x := rfl
@[simp] theorem Part.setRemnants_presence (p : Part) (rs : List Remnant) (x : Crane) (y : Bed) : (p.setRemnants rs).presence x y = p.presence x y := rfl
@[simp] theorem Part.setRemnants_job (p : Part) (rs : List Remnant) (x : JobNo) : (p.setRemnants rs).job x = p.job x := rfl
@[simp] theorem Part.setRemnants_queue (p : Part) (rs : List Remnant) (x : Gantry) : (p.setRemnants rs).queue x = p.queue x := rfl
@[simp] theorem Part.setRemnants_engine (p : Part) (rs : List Remnant) (x : Gantry) : (p.setRemnants rs).engine x = p.engine x := rfl
@[simp] theorem Part.setRemnants_registration (p : Part) (rs : List Remnant) (x : Gantry) : (p.setRemnants rs).registration x = p.registration x := rfl
@[simp] theorem Part.setRemnants_params (p : Part) (rs : List Remnant) (x : Gantry) : (p.setRemnants rs).params x = p.params x := rfl
@[simp] theorem Part.setRemnants_marks (p : Part) (rs : List Remnant) (x : Gantry) : (p.setRemnants rs).marks x = p.marks x := rfl
@[simp] theorem Part.setRemnants_order (p : Part) (rs : List Remnant) (x : OrderNo) : (p.setRemnants rs).order x = p.order x := rfl
@[simp] theorem Part.setRemnants_orderQueue (p : Part) (rs : List Remnant) (x : Crane) : (p.setRemnants rs).orderQueue x = p.orderQueue x := rfl
@[simp] theorem Part.setRemnants_slot (p : Part) (rs : List Remnant) (x : SlotNo) : (p.setRemnants rs).slot x = p.slot x := rfl
@[simp] theorem Part.setRemnants_station (p : Part) (rs : List Remnant) (x : Station) : (p.setRemnants rs).station x = p.station x := rfl
@[simp] theorem Part.setRemnants_pass (p : Part) (rs : List Remnant) (x : Station) : (p.setRemnants rs).pass x = p.pass x := rfl
@[simp] theorem Part.setStation_hmp (p : Part) (x : Station) (r : StationRec) : (p.setStation x r).hmp = p.hmp := rfl
@[simp] theorem Part.setStation_jst (p : Part) (x : Station) (r : StationRec) : (p.setStation x r).jst = p.jst := rfl
@[simp] theorem Part.setStation_bds (p : Part) (x : Station) (r : StationRec) : (p.setStation x r).bds = p.bds := rfl
@[simp] theorem Part.setStation_mks (p : Part) (x : Station) (r : StationRec) : (p.setStation x r).mks = p.mks := rfl
@[simp] theorem Part.setStation_cou (p : Part) (x : Station) (r : StationRec) : (p.setStation x r).cou = p.cou := rfl
@[simp] theorem Part.setStation_rsu (p : Part) (x : Station) (r : StationRec) : (p.setStation x r).rsu = p.rsu := rfl
@[simp] theorem Part.setStation_ofp (p : Part) (x : Station) (r : StationRec) : (p.setStation x r).ofp = p.ofp := rfl
@[simp] theorem Part.setStation_agenda (p : Part) (x : Station) (r : StationRec) : (p.setStation x r).agenda = p.agenda := rfl
@[simp] theorem Part.setStation_flp_inFlight (p : Part) (x : Station) (r : StationRec) : (p.setStation x r).flp.inFlight = p.flp.inFlight := rfl
@[simp] theorem Part.setStation_flp_silence (p : Part) (x : Station) (r : StationRec) : (p.setStation x r).flp.silence = p.flp.silence := rfl
@[simp] theorem Part.setStation_flp_pending (p : Part) (x : Station) (r : StationRec) : (p.setStation x r).flp.pending = p.flp.pending := rfl
@[simp] theorem Part.setStation_flp_lastCommand (p : Part) (x : Station) (r : StationRec) : (p.setStation x r).flp.lastCommand = p.flp.lastCommand := rfl
@[simp] theorem Part.setStation_flp_lastMark (p : Part) (x : Station) (r : StationRec) : (p.setStation x r).flp.lastMark = p.flp.lastMark := rfl
@[simp] theorem Part.setStation_flp_turn (p : Part) (x : Station) (r : StationRec) : (p.setStation x r).flp.turn = p.flp.turn := rfl
@[simp] theorem Part.setStation_flp_nextCrane (p : Part) (x : Station) (r : StationRec) : (p.setStation x r).flp.nextCrane = p.flp.nextCrane := rfl
@[simp] theorem Part.setStation_flp_nextGantry (p : Part) (x : Station) (r : StationRec) : (p.setStation x r).flp.nextGantry = p.flp.nextGantry := rfl
@[simp] theorem Part.setStation_flp_passTable (p : Part) (x : Station) (r : StationRec) : (p.setStation x r).flp.passTable = p.flp.passTable := rfl
@[simp] theorem Part.setStation_flp_passHeld (p : Part) (x : Station) (r : StationRec) : (p.setStation x r).flp.passHeld = p.flp.passHeld := rfl
@[simp] theorem Part.setStation_flp_answerWindow (p : Part) (x : Station) (r : StationRec) : (p.setStation x r).flp.answerWindow = p.flp.answerWindow := rfl
@[simp] theorem Part.setStation_bed (p : Part) (z : Station) (r : StationRec) (x : Bed) : (p.setStation z r).bed x = p.bed x := rfl
@[simp] theorem Part.setStation_crane (p : Part) (z : Station) (r : StationRec) (x : Crane) : (p.setStation z r).crane x = p.crane x := rfl
@[simp] theorem Part.setStation_presence (p : Part) (z : Station) (r : StationRec) (x : Crane) (y : Bed) : (p.setStation z r).presence x y = p.presence x y := rfl
@[simp] theorem Part.setStation_job (p : Part) (z : Station) (r : StationRec) (x : JobNo) : (p.setStation z r).job x = p.job x := rfl
@[simp] theorem Part.setStation_queue (p : Part) (z : Station) (r : StationRec) (x : Gantry) : (p.setStation z r).queue x = p.queue x := rfl
@[simp] theorem Part.setStation_engine (p : Part) (z : Station) (r : StationRec) (x : Gantry) : (p.setStation z r).engine x = p.engine x := rfl
@[simp] theorem Part.setStation_registration (p : Part) (z : Station) (r : StationRec) (x : Gantry) : (p.setStation z r).registration x = p.registration x := rfl
@[simp] theorem Part.setStation_params (p : Part) (z : Station) (r : StationRec) (x : Gantry) : (p.setStation z r).params x = p.params x := rfl
@[simp] theorem Part.setStation_marks (p : Part) (z : Station) (r : StationRec) (x : Gantry) : (p.setStation z r).marks x = p.marks x := rfl
@[simp] theorem Part.setStation_order (p : Part) (z : Station) (r : StationRec) (x : OrderNo) : (p.setStation z r).order x = p.order x := rfl
@[simp] theorem Part.setStation_orderQueue (p : Part) (z : Station) (r : StationRec) (x : Crane) : (p.setStation z r).orderQueue x = p.orderQueue x := rfl
@[simp] theorem Part.setStation_slot (p : Part) (z : Station) (r : StationRec) (x : SlotNo) : (p.setStation z r).slot x = p.slot x := rfl
@[simp] theorem Part.setStation_pass (p : Part) (z : Station) (r : StationRec) (x : Station) : (p.setStation z r).pass x = p.pass x := rfl
@[simp] theorem Part.setPass_hmp (p : Part) (x : Station) (r : PassRec) : (p.setPass x r).hmp = p.hmp := rfl
@[simp] theorem Part.setPass_jst (p : Part) (x : Station) (r : PassRec) : (p.setPass x r).jst = p.jst := rfl
@[simp] theorem Part.setPass_bds (p : Part) (x : Station) (r : PassRec) : (p.setPass x r).bds = p.bds := rfl
@[simp] theorem Part.setPass_mks (p : Part) (x : Station) (r : PassRec) : (p.setPass x r).mks = p.mks := rfl
@[simp] theorem Part.setPass_cou (p : Part) (x : Station) (r : PassRec) : (p.setPass x r).cou = p.cou := rfl
@[simp] theorem Part.setPass_rsu (p : Part) (x : Station) (r : PassRec) : (p.setPass x r).rsu = p.rsu := rfl
@[simp] theorem Part.setPass_ofp (p : Part) (x : Station) (r : PassRec) : (p.setPass x r).ofp = p.ofp := rfl
@[simp] theorem Part.setPass_agenda (p : Part) (x : Station) (r : PassRec) : (p.setPass x r).agenda = p.agenda := rfl
@[simp] theorem Part.setPass_flp_stations (p : Part) (x : Station) (r : PassRec) : (p.setPass x r).flp.stations = p.flp.stations := rfl
@[simp] theorem Part.setPass_flp_inFlight (p : Part) (x : Station) (r : PassRec) : (p.setPass x r).flp.inFlight = p.flp.inFlight := rfl
@[simp] theorem Part.setPass_flp_silence (p : Part) (x : Station) (r : PassRec) : (p.setPass x r).flp.silence = p.flp.silence := rfl
@[simp] theorem Part.setPass_flp_pending (p : Part) (x : Station) (r : PassRec) : (p.setPass x r).flp.pending = p.flp.pending := rfl
@[simp] theorem Part.setPass_flp_lastCommand (p : Part) (x : Station) (r : PassRec) : (p.setPass x r).flp.lastCommand = p.flp.lastCommand := rfl
@[simp] theorem Part.setPass_flp_lastMark (p : Part) (x : Station) (r : PassRec) : (p.setPass x r).flp.lastMark = p.flp.lastMark := rfl
@[simp] theorem Part.setPass_flp_turn (p : Part) (x : Station) (r : PassRec) : (p.setPass x r).flp.turn = p.flp.turn := rfl
@[simp] theorem Part.setPass_flp_nextCrane (p : Part) (x : Station) (r : PassRec) : (p.setPass x r).flp.nextCrane = p.flp.nextCrane := rfl
@[simp] theorem Part.setPass_flp_nextGantry (p : Part) (x : Station) (r : PassRec) : (p.setPass x r).flp.nextGantry = p.flp.nextGantry := rfl
@[simp] theorem Part.setPass_flp_passHeld (p : Part) (x : Station) (r : PassRec) : (p.setPass x r).flp.passHeld = p.flp.passHeld := rfl
@[simp] theorem Part.setPass_flp_answerWindow (p : Part) (x : Station) (r : PassRec) : (p.setPass x r).flp.answerWindow = p.flp.answerWindow := rfl
@[simp] theorem Part.setPass_bed (p : Part) (z : Station) (r : PassRec) (x : Bed) : (p.setPass z r).bed x = p.bed x := rfl
@[simp] theorem Part.setPass_crane (p : Part) (z : Station) (r : PassRec) (x : Crane) : (p.setPass z r).crane x = p.crane x := rfl
@[simp] theorem Part.setPass_presence (p : Part) (z : Station) (r : PassRec) (x : Crane) (y : Bed) : (p.setPass z r).presence x y = p.presence x y := rfl
@[simp] theorem Part.setPass_job (p : Part) (z : Station) (r : PassRec) (x : JobNo) : (p.setPass z r).job x = p.job x := rfl
@[simp] theorem Part.setPass_queue (p : Part) (z : Station) (r : PassRec) (x : Gantry) : (p.setPass z r).queue x = p.queue x := rfl
@[simp] theorem Part.setPass_engine (p : Part) (z : Station) (r : PassRec) (x : Gantry) : (p.setPass z r).engine x = p.engine x := rfl
@[simp] theorem Part.setPass_registration (p : Part) (z : Station) (r : PassRec) (x : Gantry) : (p.setPass z r).registration x = p.registration x := rfl
@[simp] theorem Part.setPass_params (p : Part) (z : Station) (r : PassRec) (x : Gantry) : (p.setPass z r).params x = p.params x := rfl
@[simp] theorem Part.setPass_marks (p : Part) (z : Station) (r : PassRec) (x : Gantry) : (p.setPass z r).marks x = p.marks x := rfl
@[simp] theorem Part.setPass_order (p : Part) (z : Station) (r : PassRec) (x : OrderNo) : (p.setPass z r).order x = p.order x := rfl
@[simp] theorem Part.setPass_orderQueue (p : Part) (z : Station) (r : PassRec) (x : Crane) : (p.setPass z r).orderQueue x = p.orderQueue x := rfl
@[simp] theorem Part.setPass_slot (p : Part) (z : Station) (r : PassRec) (x : SlotNo) : (p.setPass z r).slot x = p.slot x := rfl
@[simp] theorem Part.setPass_station (p : Part) (z : Station) (r : PassRec) (x : Station) : (p.setPass z r).station x = p.station x := rfl
@[simp] theorem Part.emit_hmp (p : Part) (t : Task) : (p.emit t).hmp = p.hmp := rfl
@[simp] theorem Part.emit_jst (p : Part) (t : Task) : (p.emit t).jst = p.jst := rfl
@[simp] theorem Part.emit_bds (p : Part) (t : Task) : (p.emit t).bds = p.bds := rfl
@[simp] theorem Part.emit_mks (p : Part) (t : Task) : (p.emit t).mks = p.mks := rfl
@[simp] theorem Part.emit_cou (p : Part) (t : Task) : (p.emit t).cou = p.cou := rfl
@[simp] theorem Part.emit_rsu (p : Part) (t : Task) : (p.emit t).rsu = p.rsu := rfl
@[simp] theorem Part.emit_flp (p : Part) (t : Task) : (p.emit t).flp = p.flp := rfl
@[simp] theorem Part.emit_ofp (p : Part) (t : Task) : (p.emit t).ofp = p.ofp := rfl
@[simp] theorem Part.emit_agenda (p : Part) (t : Task) : (p.emit t).agenda = p.agenda ++ [t] := rfl
@[simp] theorem Part.emit_bed (p : Part) (t : Task) (x : Bed) : (p.emit t).bed x = p.bed x := rfl
@[simp] theorem Part.emit_crane (p : Part) (t : Task) (x : Crane) : (p.emit t).crane x = p.crane x := rfl
@[simp] theorem Part.emit_presence (p : Part) (t : Task) (x : Crane) (y : Bed) : (p.emit t).presence x y = p.presence x y := rfl
@[simp] theorem Part.emit_job (p : Part) (t : Task) (x : JobNo) : (p.emit t).job x = p.job x := rfl
@[simp] theorem Part.emit_queue (p : Part) (t : Task) (x : Gantry) : (p.emit t).queue x = p.queue x := rfl
@[simp] theorem Part.emit_engine (p : Part) (t : Task) (x : Gantry) : (p.emit t).engine x = p.engine x := rfl
@[simp] theorem Part.emit_registration (p : Part) (t : Task) (x : Gantry) : (p.emit t).registration x = p.registration x := rfl
@[simp] theorem Part.emit_params (p : Part) (t : Task) (x : Gantry) : (p.emit t).params x = p.params x := rfl
@[simp] theorem Part.emit_marks (p : Part) (t : Task) (x : Gantry) : (p.emit t).marks x = p.marks x := rfl
@[simp] theorem Part.emit_order (p : Part) (t : Task) (x : OrderNo) : (p.emit t).order x = p.order x := rfl
@[simp] theorem Part.emit_orderQueue (p : Part) (t : Task) (x : Crane) : (p.emit t).orderQueue x = p.orderQueue x := rfl
@[simp] theorem Part.emit_slot (p : Part) (t : Task) (x : SlotNo) : (p.emit t).slot x = p.slot x := rfl
@[simp] theorem Part.emit_station (p : Part) (t : Task) (x : Station) : (p.emit t).station x = p.station x := rfl
@[simp] theorem Part.emit_pass (p : Part) (t : Task) (x : Station) : (p.emit t).pass x = p.pass x := rfl
@[simp] theorem Part.emits_hmp (p : Part) (ts : List Task) : (p.emits ts).hmp = p.hmp := rfl
@[simp] theorem Part.emits_jst (p : Part) (ts : List Task) : (p.emits ts).jst = p.jst := rfl
@[simp] theorem Part.emits_bds (p : Part) (ts : List Task) : (p.emits ts).bds = p.bds := rfl
@[simp] theorem Part.emits_mks (p : Part) (ts : List Task) : (p.emits ts).mks = p.mks := rfl
@[simp] theorem Part.emits_cou (p : Part) (ts : List Task) : (p.emits ts).cou = p.cou := rfl
@[simp] theorem Part.emits_rsu (p : Part) (ts : List Task) : (p.emits ts).rsu = p.rsu := rfl
@[simp] theorem Part.emits_flp (p : Part) (ts : List Task) : (p.emits ts).flp = p.flp := rfl
@[simp] theorem Part.emits_ofp (p : Part) (ts : List Task) : (p.emits ts).ofp = p.ofp := rfl
@[simp] theorem Part.emits_agenda (p : Part) (ts : List Task) : (p.emits ts).agenda = p.agenda ++ ts := rfl
@[simp] theorem Part.emits_bed (p : Part) (ts : List Task) (x : Bed) : (p.emits ts).bed x = p.bed x := rfl
@[simp] theorem Part.emits_crane (p : Part) (ts : List Task) (x : Crane) : (p.emits ts).crane x = p.crane x := rfl
@[simp] theorem Part.emits_presence (p : Part) (ts : List Task) (x : Crane) (y : Bed) : (p.emits ts).presence x y = p.presence x y := rfl
@[simp] theorem Part.emits_job (p : Part) (ts : List Task) (x : JobNo) : (p.emits ts).job x = p.job x := rfl
@[simp] theorem Part.emits_queue (p : Part) (ts : List Task) (x : Gantry) : (p.emits ts).queue x = p.queue x := rfl
@[simp] theorem Part.emits_engine (p : Part) (ts : List Task) (x : Gantry) : (p.emits ts).engine x = p.engine x := rfl
@[simp] theorem Part.emits_registration (p : Part) (ts : List Task) (x : Gantry) : (p.emits ts).registration x = p.registration x := rfl
@[simp] theorem Part.emits_params (p : Part) (ts : List Task) (x : Gantry) : (p.emits ts).params x = p.params x := rfl
@[simp] theorem Part.emits_marks (p : Part) (ts : List Task) (x : Gantry) : (p.emits ts).marks x = p.marks x := rfl
@[simp] theorem Part.emits_order (p : Part) (ts : List Task) (x : OrderNo) : (p.emits ts).order x = p.order x := rfl
@[simp] theorem Part.emits_orderQueue (p : Part) (ts : List Task) (x : Crane) : (p.emits ts).orderQueue x = p.orderQueue x := rfl
@[simp] theorem Part.emits_slot (p : Part) (ts : List Task) (x : SlotNo) : (p.emits ts).slot x = p.slot x := rfl
@[simp] theorem Part.emits_station (p : Part) (ts : List Task) (x : Station) : (p.emits ts).station x = p.station x := rfl
@[simp] theorem Part.emits_pass (p : Part) (ts : List Task) (x : Station) : (p.emits ts).pass x = p.pass x := rfl
@[simp] theorem Part.notify_hmp (p : Part) (n : Notice) : (p.notify n).hmp = p.hmp := rfl
@[simp] theorem Part.notify_jst (p : Part) (n : Notice) : (p.notify n).jst = p.jst := rfl
@[simp] theorem Part.notify_bds (p : Part) (n : Notice) : (p.notify n).bds = p.bds := rfl
@[simp] theorem Part.notify_mks (p : Part) (n : Notice) : (p.notify n).mks = p.mks := rfl
@[simp] theorem Part.notify_cou (p : Part) (n : Notice) : (p.notify n).cou = p.cou := rfl
@[simp] theorem Part.notify_rsu (p : Part) (n : Notice) : (p.notify n).rsu = p.rsu := rfl
@[simp] theorem Part.notify_flp (p : Part) (n : Notice) : (p.notify n).flp = p.flp := rfl
@[simp] theorem Part.notify_agenda (p : Part) (n : Notice) : (p.notify n).agenda = p.agenda := rfl
@[simp] theorem Part.notify_ofp_assembler (p : Part) (n : Notice) : (p.notify n).ofp.assembler = p.ofp.assembler := by unfold Part.notify OfficePort.notify; dsimp only; split <;> rfl
@[simp] theorem Part.notify_ofp_waiting (p : Part) (n : Notice) : (p.notify n).ofp.waiting = p.ofp.waiting := by unfold Part.notify OfficePort.notify; dsimp only; split <;> rfl
@[simp] theorem Part.notify_ofp_replies (p : Part) (n : Notice) : (p.notify n).ofp.replies = p.ofp.replies := by unfold Part.notify OfficePort.notify; dsimp only; split <;> rfl
@[simp] theorem Part.notify_ofp_sending (p : Part) (n : Notice) : (p.notify n).ofp.sending = p.ofp.sending := by unfold Part.notify OfficePort.notify; dsimp only; split <;> rfl
@[simp] theorem Part.notify_ofp_resetHeld (p : Part) (n : Notice) : (p.notify n).ofp.resetHeld = p.ofp.resetHeld := by unfold Part.notify OfficePort.notify; dsimp only; split <;> rfl
@[simp] theorem Part.notify_ofp_sequence (p : Part) (n : Notice) : (p.notify n).ofp.sequence = (p.ofp.sequence + 1) % 65536 := by unfold Part.notify OfficePort.notify; dsimp only; split <;> rfl
@[simp] theorem Part.notify_bed (p : Part) (n : Notice) (x : Bed) : (p.notify n).bed x = p.bed x := rfl
@[simp] theorem Part.notify_crane (p : Part) (n : Notice) (x : Crane) : (p.notify n).crane x = p.crane x := rfl
@[simp] theorem Part.notify_presence (p : Part) (n : Notice) (x : Crane) (y : Bed) : (p.notify n).presence x y = p.presence x y := rfl
@[simp] theorem Part.notify_job (p : Part) (n : Notice) (x : JobNo) : (p.notify n).job x = p.job x := rfl
@[simp] theorem Part.notify_queue (p : Part) (n : Notice) (x : Gantry) : (p.notify n).queue x = p.queue x := rfl
@[simp] theorem Part.notify_engine (p : Part) (n : Notice) (x : Gantry) : (p.notify n).engine x = p.engine x := rfl
@[simp] theorem Part.notify_registration (p : Part) (n : Notice) (x : Gantry) : (p.notify n).registration x = p.registration x := rfl
@[simp] theorem Part.notify_params (p : Part) (n : Notice) (x : Gantry) : (p.notify n).params x = p.params x := rfl
@[simp] theorem Part.notify_marks (p : Part) (n : Notice) (x : Gantry) : (p.notify n).marks x = p.marks x := rfl
@[simp] theorem Part.notify_order (p : Part) (n : Notice) (x : OrderNo) : (p.notify n).order x = p.order x := rfl
@[simp] theorem Part.notify_orderQueue (p : Part) (n : Notice) (x : Crane) : (p.notify n).orderQueue x = p.orderQueue x := rfl
@[simp] theorem Part.notify_slot (p : Part) (n : Notice) (x : SlotNo) : (p.notify n).slot x = p.slot x := rfl
@[simp] theorem Part.notify_station (p : Part) (n : Notice) (x : Station) : (p.notify n).station x = p.station x := rfl
@[simp] theorem Part.notify_pass (p : Part) (n : Notice) (x : Station) : (p.notify n).pass x = p.pass x := rfl
@[simp] theorem Part.request_hmp (p : Part) (x : Station) (fr : FloorFrame) : (p.request x fr).hmp = p.hmp := rfl
@[simp] theorem Part.request_jst (p : Part) (x : Station) (fr : FloorFrame) : (p.request x fr).jst = p.jst := rfl
@[simp] theorem Part.request_bds (p : Part) (x : Station) (fr : FloorFrame) : (p.request x fr).bds = p.bds := rfl
@[simp] theorem Part.request_mks (p : Part) (x : Station) (fr : FloorFrame) : (p.request x fr).mks = p.mks := rfl
@[simp] theorem Part.request_cou (p : Part) (x : Station) (fr : FloorFrame) : (p.request x fr).cou = p.cou := rfl
@[simp] theorem Part.request_rsu (p : Part) (x : Station) (fr : FloorFrame) : (p.request x fr).rsu = p.rsu := rfl
@[simp] theorem Part.request_ofp (p : Part) (x : Station) (fr : FloorFrame) : (p.request x fr).ofp = p.ofp := rfl
@[simp] theorem Part.request_agenda (p : Part) (x : Station) (fr : FloorFrame) : (p.request x fr).agenda = p.agenda := rfl
@[simp] theorem Part.request_flp_stations (p : Part) (x : Station) (fr : FloorFrame) : (p.request x fr).flp.stations = p.flp.stations := by unfold Part.request FloorPort.request; split <;> (try split) <;> rfl
@[simp] theorem Part.request_flp_inFlight (p : Part) (x : Station) (fr : FloorFrame) : (p.request x fr).flp.inFlight = p.flp.inFlight := by unfold Part.request FloorPort.request; split <;> (try split) <;> rfl
@[simp] theorem Part.request_flp_silence (p : Part) (x : Station) (fr : FloorFrame) : (p.request x fr).flp.silence = p.flp.silence := by unfold Part.request FloorPort.request; split <;> (try split) <;> rfl
@[simp] theorem Part.request_flp_lastCommand (p : Part) (x : Station) (fr : FloorFrame) : (p.request x fr).flp.lastCommand = p.flp.lastCommand := by unfold Part.request FloorPort.request; split <;> (try split) <;> rfl
@[simp] theorem Part.request_flp_lastMark (p : Part) (x : Station) (fr : FloorFrame) : (p.request x fr).flp.lastMark = p.flp.lastMark := by unfold Part.request FloorPort.request; split <;> (try split) <;> rfl
@[simp] theorem Part.request_flp_turn (p : Part) (x : Station) (fr : FloorFrame) : (p.request x fr).flp.turn = p.flp.turn := by unfold Part.request FloorPort.request; split <;> (try split) <;> rfl
@[simp] theorem Part.request_flp_nextCrane (p : Part) (x : Station) (fr : FloorFrame) : (p.request x fr).flp.nextCrane = p.flp.nextCrane := by unfold Part.request FloorPort.request; split <;> (try split) <;> rfl
@[simp] theorem Part.request_flp_nextGantry (p : Part) (x : Station) (fr : FloorFrame) : (p.request x fr).flp.nextGantry = p.flp.nextGantry := by unfold Part.request FloorPort.request; split <;> (try split) <;> rfl
@[simp] theorem Part.request_flp_passTable (p : Part) (x : Station) (fr : FloorFrame) : (p.request x fr).flp.passTable = p.flp.passTable := by unfold Part.request FloorPort.request; split <;> (try split) <;> rfl
@[simp] theorem Part.request_flp_passHeld (p : Part) (x : Station) (fr : FloorFrame) : (p.request x fr).flp.passHeld = p.flp.passHeld := by unfold Part.request FloorPort.request; split <;> (try split) <;> rfl
@[simp] theorem Part.request_flp_answerWindow (p : Part) (x : Station) (fr : FloorFrame) : (p.request x fr).flp.answerWindow = p.flp.answerWindow := by unfold Part.request FloorPort.request; split <;> (try split) <;> rfl
@[simp] theorem Part.request_bed (p : Part) (z : Station) (fr : FloorFrame) (x : Bed) : (p.request z fr).bed x = p.bed x := rfl
@[simp] theorem Part.request_crane (p : Part) (z : Station) (fr : FloorFrame) (x : Crane) : (p.request z fr).crane x = p.crane x := rfl
@[simp] theorem Part.request_presence (p : Part) (z : Station) (fr : FloorFrame) (x : Crane) (y : Bed) : (p.request z fr).presence x y = p.presence x y := rfl
@[simp] theorem Part.request_job (p : Part) (z : Station) (fr : FloorFrame) (x : JobNo) : (p.request z fr).job x = p.job x := rfl
@[simp] theorem Part.request_queue (p : Part) (z : Station) (fr : FloorFrame) (x : Gantry) : (p.request z fr).queue x = p.queue x := rfl
@[simp] theorem Part.request_engine (p : Part) (z : Station) (fr : FloorFrame) (x : Gantry) : (p.request z fr).engine x = p.engine x := rfl
@[simp] theorem Part.request_registration (p : Part) (z : Station) (fr : FloorFrame) (x : Gantry) : (p.request z fr).registration x = p.registration x := rfl
@[simp] theorem Part.request_params (p : Part) (z : Station) (fr : FloorFrame) (x : Gantry) : (p.request z fr).params x = p.params x := rfl
@[simp] theorem Part.request_marks (p : Part) (z : Station) (fr : FloorFrame) (x : Gantry) : (p.request z fr).marks x = p.marks x := rfl
@[simp] theorem Part.request_order (p : Part) (z : Station) (fr : FloorFrame) (x : OrderNo) : (p.request z fr).order x = p.order x := rfl
@[simp] theorem Part.request_orderQueue (p : Part) (z : Station) (fr : FloorFrame) (x : Crane) : (p.request z fr).orderQueue x = p.orderQueue x := rfl
@[simp] theorem Part.request_slot (p : Part) (z : Station) (fr : FloorFrame) (x : SlotNo) : (p.request z fr).slot x = p.slot x := rfl
@[simp] theorem Part.withdraw_hmp (p : Part) (what : FloorRequest → Bool) : (p.withdraw what).hmp = p.hmp := rfl
@[simp] theorem Part.withdraw_jst (p : Part) (what : FloorRequest → Bool) : (p.withdraw what).jst = p.jst := rfl
@[simp] theorem Part.withdraw_bds (p : Part) (what : FloorRequest → Bool) : (p.withdraw what).bds = p.bds := rfl
@[simp] theorem Part.withdraw_mks (p : Part) (what : FloorRequest → Bool) : (p.withdraw what).mks = p.mks := rfl
@[simp] theorem Part.withdraw_cou (p : Part) (what : FloorRequest → Bool) : (p.withdraw what).cou = p.cou := rfl
@[simp] theorem Part.withdraw_rsu (p : Part) (what : FloorRequest → Bool) : (p.withdraw what).rsu = p.rsu := rfl
@[simp] theorem Part.withdraw_ofp (p : Part) (what : FloorRequest → Bool) : (p.withdraw what).ofp = p.ofp := rfl
@[simp] theorem Part.withdraw_agenda (p : Part) (what : FloorRequest → Bool) : (p.withdraw what).agenda = p.agenda := rfl
@[simp] theorem Part.withdraw_flp_stations (p : Part) (what : FloorRequest → Bool) : (p.withdraw what).flp.stations = p.flp.stations := rfl
@[simp] theorem Part.withdraw_flp_inFlight (p : Part) (what : FloorRequest → Bool) : (p.withdraw what).flp.inFlight = p.flp.inFlight := rfl
@[simp] theorem Part.withdraw_flp_silence (p : Part) (what : FloorRequest → Bool) : (p.withdraw what).flp.silence = p.flp.silence := rfl
@[simp] theorem Part.withdraw_flp_lastCommand (p : Part) (what : FloorRequest → Bool) : (p.withdraw what).flp.lastCommand = p.flp.lastCommand := rfl
@[simp] theorem Part.withdraw_flp_lastMark (p : Part) (what : FloorRequest → Bool) : (p.withdraw what).flp.lastMark = p.flp.lastMark := rfl
@[simp] theorem Part.withdraw_flp_turn (p : Part) (what : FloorRequest → Bool) : (p.withdraw what).flp.turn = p.flp.turn := rfl
@[simp] theorem Part.withdraw_flp_nextCrane (p : Part) (what : FloorRequest → Bool) : (p.withdraw what).flp.nextCrane = p.flp.nextCrane := rfl
@[simp] theorem Part.withdraw_flp_nextGantry (p : Part) (what : FloorRequest → Bool) : (p.withdraw what).flp.nextGantry = p.flp.nextGantry := rfl
@[simp] theorem Part.withdraw_flp_passTable (p : Part) (what : FloorRequest → Bool) : (p.withdraw what).flp.passTable = p.flp.passTable := rfl
@[simp] theorem Part.withdraw_flp_passHeld (p : Part) (what : FloorRequest → Bool) : (p.withdraw what).flp.passHeld = p.flp.passHeld := rfl
@[simp] theorem Part.withdraw_flp_answerWindow (p : Part) (what : FloorRequest → Bool) : (p.withdraw what).flp.answerWindow = p.flp.answerWindow := rfl
@[simp] theorem Part.withdraw_bed (p : Part) (what : FloorRequest → Bool) (x : Bed) : (p.withdraw what).bed x = p.bed x := rfl
@[simp] theorem Part.withdraw_crane (p : Part) (what : FloorRequest → Bool) (x : Crane) : (p.withdraw what).crane x = p.crane x := rfl
@[simp] theorem Part.withdraw_presence (p : Part) (what : FloorRequest → Bool) (x : Crane) (y : Bed) : (p.withdraw what).presence x y = p.presence x y := rfl
@[simp] theorem Part.withdraw_job (p : Part) (what : FloorRequest → Bool) (x : JobNo) : (p.withdraw what).job x = p.job x := rfl
@[simp] theorem Part.withdraw_queue (p : Part) (what : FloorRequest → Bool) (x : Gantry) : (p.withdraw what).queue x = p.queue x := rfl
@[simp] theorem Part.withdraw_engine (p : Part) (what : FloorRequest → Bool) (x : Gantry) : (p.withdraw what).engine x = p.engine x := rfl
@[simp] theorem Part.withdraw_registration (p : Part) (what : FloorRequest → Bool) (x : Gantry) : (p.withdraw what).registration x = p.registration x := rfl
@[simp] theorem Part.withdraw_params (p : Part) (what : FloorRequest → Bool) (x : Gantry) : (p.withdraw what).params x = p.params x := rfl
@[simp] theorem Part.withdraw_marks (p : Part) (what : FloorRequest → Bool) (x : Gantry) : (p.withdraw what).marks x = p.marks x := rfl
@[simp] theorem Part.withdraw_order (p : Part) (what : FloorRequest → Bool) (x : OrderNo) : (p.withdraw what).order x = p.order x := rfl
@[simp] theorem Part.withdraw_orderQueue (p : Part) (what : FloorRequest → Bool) (x : Crane) : (p.withdraw what).orderQueue x = p.orderQueue x := rfl
@[simp] theorem Part.withdraw_slot (p : Part) (what : FloorRequest → Bool) (x : SlotNo) : (p.withdraw what).slot x = p.slot x := rfl
@[simp] theorem Part.withdraw_station (p : Part) (what : FloorRequest → Bool) (x : Station) : (p.withdraw what).station x = p.station x := rfl
@[simp] theorem Part.withdraw_pass (p : Part) (what : FloorRequest → Bool) (x : Station) : (p.withdraw what).pass x = p.pass x := rfl

end Sys2Proof.Machine
end

