-- ==== Sys2Proof/Laws/Settle.lean ====
section
/-! SUPPORT. What running the hand-offs does, and the two shapes of a command: what an answered request and an event leave. -/

namespace Sys2Proof.Machine

/-! ## Hand-offs -/

/-- Nothing is run when no hand-off is left. -/
theorem settle_nil (n : Nat) {p : Part} (h : p.agenda = []) : settle n p = p := by cases n <;> simp [settle, h]

/-- One hand-off run. -/
theorem settle_cons (n : Nat) {p : Part} {t : Task} {rest : List Task} (h : p.agenda = t :: rest) :
    settle (n + 1) p = settle n (p.runFirst t rest) := by simp [settle, h]

/-- A part without hand-offs is settled as it stands. -/
theorem Part.settled_nil {p : Part} (h : p.agenda = []) : p.settled = p := by
  unfold Part.settled; rw [settle_nil _ h]; cases p; simp_all

/-- Hand-offs leave nothing behind. -/
@[simp] theorem Part.settled_agenda (p : Part) : p.settled.agenda = [] := rfl

/-- The part after its hand-offs when the first `k` of them have been run (`k` small against the bound of log 6). -/
theorem Part.settled_eq {p q : Part} (k : Nat) (hk : k ≤ 1000) (h : settle k p = q) (hq : q.agenda = []) : p.settled = q := by
  have run : ∀ (k n : Nat) (p : Part), settle (k + n) p = settle n (settle k p) := by
    intro k
    induction k with
    | zero => intro n p; simp [settle]
    | succ k ih =>
        intro n p
        cases ha : p.agenda with
        | nil => rw [settle_nil _ ha, settle_nil (k + 1) ha, settle_nil _ ha]
        | cons t rest =>
            rw [settle_cons k ha, show k + 1 + n = (k + n) + 1 by omega, settle_cons (k + n) ha]
            exact ih n _
  obtain ⟨m, hm⟩ : ∃ m, Config.agendaFuel = k + m := ⟨1000000 - k, by unfold Config.agendaFuel; omega⟩
  unfold Part.settled
  rw [hm, run, h, settle_nil _ hq]
  cases q; simp_all

/-- A hand-off changes nothing in this part, standing alone. -/
abbrev Part.Idle (p : Part) (t : Task) : Prop := ({ p with agenda := [] }).micro t = { p with agenda := [] }

/-- Hand-offs that change nothing are run without effect. -/
theorem settle_idle (p : Part) (ts : List Task) (h : ∀ t ∈ ts, p.Idle t) (ha : p.agenda = ts) :
    settle ts.length p = { p with agenda := [] } := by
  induction ts generalizing p with
  | nil => rw [settle_nil _ ha]; cases p; simp_all
  | cons t rest ih =>
      have ht : p.Idle t := h t (by simp)
      have hrun : p.runFirst t rest = { p with agenda := rest } := by
        unfold Part.runFirst; rw [show ({ p with agenda := [] } : Part).micro t = { p with agenda := [] } from ht]; simp
      rw [List.length_cons, settle_cons _ ha, hrun, ih { p with agenda := rest } ?_ rfl]
      intro u hu; exact h u (by simp [hu])

/-- The part is settled by dropping hand-offs that change nothing. -/
theorem Part.settled_idle {p : Part} (hk : p.agenda.length ≤ 1000) (h : ∀ t ∈ p.agenda, p.Idle t) :
    p.settled = { p with agenda := [] } := by
  exact Part.settled_eq _ hk (settle_idle p p.agenda h rfl) rfl

/-- A single hand-off run. -/
theorem settle_emit (n : Nat) {p : Part} (t : Task) (h : p.agenda = []) : settle (n + 1) (p.emit t) = settle n (p.micro t) := by
  rw [settle_cons n (t := t) (rest := []) (by simp [h])]
  have : ({ p.emit t with agenda := [] } : Part) = p := by cases p; simp_all [Part.emit]
  unfold Part.runFirst; rw [this]; simp

/-- The first of several hand-offs run. -/
theorem settle_emits (n : Nat) {p : Part} (t : Task) (ts : List Task) (h : p.agenda = []) :
    settle (n + 1) (p.emits (t :: ts)) = settle n ((p.micro t).emits ts) := by
  rw [settle_cons n (t := t) (rest := ts) (by simp [h])]
  have : ({ p.emits (t :: ts) with agenda := [] } : Part) = p := by cases p; simp_all [Part.emits]
  unfold Part.runFirst; rw [this]; rfl

/-- No hand-offs added. -/
@[simp] theorem Part.emits_nil (p : Part) : p.emits [] = p := by simp [Part.emits]

/-- A part without hand-offs, its hand-offs dropped. -/
theorem Part.agenda_eta {p : Part} (h : p.agenda = []) : { p with agenda := [] } = p := by cases p; simp_all

/-- Hand-offs that change nothing leave the part that made them. -/
theorem Part.settled_emits_idle {p : Part} {ts : List Task} (ha : p.agenda = []) (hk : ts.length ≤ 1000) (h : ∀ t ∈ ts, p.Idle t) :
    (p.emits ts).settled = p := by
  rw [Part.settled_idle (by simp [ha, hk]) (by intro t ht; exact h t (by simpa [ha] using ht))]
  exact (show ({ p.emits ts with agenda := [] } : Part) = { p with agenda := [] } from rfl).trans (Part.agenda_eta ha)

/-- One hand-off that changes nothing leaves the part that made it. -/
theorem Part.settled_emit_idle {p : Part} {t : Task} (ha : p.agenda = []) (h : p.Idle t) : (p.emit t).settled = p :=
  Part.settled_emits_idle (ts := [t]) ha (by simp) (by intro u hu; simp at hu; subst hu; exact h)

/-! ## The transmitter (R180) -/

/-- A busy transmitter begins nothing. -/
theorem Part.transmit_busy {p : Part} {f : OutFrame} (h : p.ofp.sending = some f) : p.transmit = p := by
  unfold Part.transmit; rw [h]

/-- A free transmitter with nothing waiting begins nothing. -/
theorem Part.transmit_rest {p : Part} (h : p.ofp.sending = none → p.ofp.replies = [] ∧ p.ofp.notices = []) : p.transmit = p := by
  cases hs : p.ofp.sending with
  | some f => exact Part.transmit_busy hs
  | none => obtain ⟨hr, hn⟩ := h hs; unfold Part.transmit; rw [hs, hr, hn]

/-! ## The two shapes of a command -/

/-- The Office Port when a request is taken: the waiting place empty (R177). -/
abbrev Part.taking (p : Part) : Part := { p with ofp := { p.ofp with waiting := none } }

/-- A request that finds its place is taken. -/
theorem Part.request?_ready {c : Instr} {p : Part} (h : Ready c p) (body : Part → Part) : p.request? c body = (body p.taking).transmit := by
  obtain ⟨⟨h1, _, _⟩, h2, h3⟩ := h
  unfold Part.request? OfficePort.admission
  rcases h2 with h2 | h2 <;> simp [h1, h2, h3, Part.taking]

/-- A settled part with a reply behind it: the reply is being sent, or waits behind those that wait. -/
theorem Part.reply_transmit {q : Part} (kind tag : Nat) (code : Reason) (body : ReplyBody)
    (hq : q.ofp.sending = none → q.ofp.replies = []) (hw : q.ofp.waiting = none) :
    (q.reply kind tag code body).transmit
      = { q with ofp := q.ofp.answeredWith { kind := kind, tag := tag, code := code, body := body } } := by
  cases hs : q.ofp.sending with
  | some f =>
      rw [Part.transmit_busy (f := f) (by simp [Part.reply, hs])]
      unfold Part.reply OfficePort.answeredWith
      cases q; rename_i o _; cases o; simp_all
  | none =>
      have hr := hq hs
      unfold Part.reply OfficePort.answeredWith Part.transmit
      cases q; rename_i o _; cases o; simp_all

/-- A request that is taken: its owner's part, settled, with the owner's answer. -/
theorem serve_ready {c : Instr} {s : State} (h : Ready c s.part) {kind tag : Nat} {owner : Part → Answered} {p q : Part} {code : Reason}
    {body : ReplyBody} (ho : owner s.part.taking = (p, code, body)) (hp : p.settled = q)
    (hs : q.ofp.sending = s.part.ofp.sending) (hr : q.ofp.replies = s.part.ofp.replies) (hw : q.ofp.waiting = none) :
    s.serve c kind tag owner
      = .next { s with part := { q with ofp := q.ofp.answeredWith { kind := kind, tag := tag, code := code, body := body } } } := by
  unfold State.serve Part.serve
  rw [Part.request?_ready h, ho]
  simp only [hp]
  rw [Part.reply_transmit _ _ _ _ ?_ hw]
  intro hn; rw [hr]; exact (h.1.2.2 (hs ▸ hn)).1

/-- A request that is taken and answered: `q` is the part its owner leaves, settled. -/
theorem answers_settled {c : Instr} {s : State} {kind tag : Nat} {owner : Part → Answered} {p q : Part} {code : Reason} {body : ReplyBody}
    (h : Ready c s.part) (hx : exec c s = s.serve c kind tag owner) (ho : owner s.part.taking = (p, code, body))
    (hp : p.settled = q.taking) (hs : q.ofp.sending = s.part.ofp.sending) (hr : q.ofp.replies = s.part.ofp.replies) :
    Answers c s { kind := kind, tag := tag, code := code, body := body } q := by
  unfold Answers; rw [hx, serve_ready h ho hp hs hr rfl]; rfl

/-- A request whose owner hands nothing on and leaves the Office Port alone. -/
theorem answers_plain {c : Instr} {s : State} {kind tag : Nat} {owner : Part → Answered} {q : Part} {code : Reason} {body : ReplyBody}
    (h : Ready c s.part) (hx : exec c s = s.serve c kind tag owner) (ho : owner s.part.taking = (q.taking, code, body))
    (ha : q.agenda = []) (hofp : q.ofp = s.part.ofp) : Answers c s { kind := kind, tag := tag, code := code, body := body } q :=
  answers_settled h hx ho (Part.settled_nil ha) (by rw [hofp]) (by rw [hofp])

/-- The waiting place does not matter to an answer. -/
@[simp] theorem OfficePort.answeredWith_waiting (o : OfficePort) (w : Option Instr) (r : Reply) :
    OfficePort.answeredWith { o with waiting := w } r = o.answeredWith r := rfl

/-- An event that is taken. -/
theorem happens_live {s : State} (h : Live s.part) (f : Part → Part) :
    s.happens f = .next { s with part := (f s.part).settled.transmit } := by
  unfold State.happens Part.happens; simp [h.1]

/-- An event that hands nothing on, and leaves the transmitter as it was. -/
theorem happens_plain {s : State} (h : Live s.part) {f : Part → Part} {q : Part} (hf : (f s.part).settled = q)
    (hofp : q.ofp.sending = s.part.ofp.sending ∧ q.ofp.replies = s.part.ofp.replies ∧ q.ofp.notices = s.part.ofp.notices) :
    s.happens f = .next { s with part := q } := by
  rw [happens_live h, hf, Part.transmit_rest]
  intro hn; rw [hofp.2.1, hofp.2.2]; exact h.2.2 (hofp.1 ▸ hn)

/-- A notice given in an event: being sent, or queued or dropped (R180, R181). -/
theorem Part.notify_transmit {p : Part} (h : p.ofp.sending = none → p.ofp.replies = [] ∧ p.ofp.notices = []) (n : Notice) :
    (p.notify n).transmit = { p with ofp := p.ofp.given n } := by
  cases hs : p.ofp.sending with
  | some f =>
      rw [Part.transmit_busy (f := f) (by unfold Part.notify OfficePort.notify; dsimp only; split <;> exact hs)]
      simp [Part.notify, OfficePort.given, hs]
  | none =>
      obtain ⟨hr, hn⟩ := h hs
      simp [Part.notify, OfficePort.notify, OfficePort.given, Part.transmit, hs, hr, hn, noticeCapacity]

/-! ## Offers and evaluations without a taker -/

/-- A bed is offered in vain when nobody on its list may have it (R9). -/
theorem Part.offer_none {p : Part} {b : Bed} (h : ∀ q ∈ (p.bed b).waiting, p.grantable q = false) : p.offer b = p := by
  unfold Part.offer
  split
  · rfl
  · rw [List.find?_eq_none.2 (by simpa using h)]

/-- No head is evaluated when none is of the kind (R128). -/
theorem Part.evalHeadsWhere_quiet {p : Part} {what : Order → Bool} (h : HeadsQuiet p what) : p.evalHeadsWhere what = p := by
  unfold Part.evalHeadsWhere Part.emits
  have : (allCranes.filter (fun c => ((p.orderQueue c).head?.bind p.order).any what)) = [] := by
    rw [List.filter_eq_nil_iff]; intro c _; simp [h c]
  rw [this]; simp

/-- Whether the heads are quiet is a matter of the orders alone. -/
theorem HeadsQuiet.congr {p q : Part} {what : Order → Bool} (h : HeadsQuiet p what) (he : q.cou = p.cou) : HeadsQuiet q what := by
  intro c
  have h1 : q.orderQueue c = p.orderQueue c := by unfold Part.orderQueue; rw [he]
  have h2 : q.order = p.order := by funext n; unfold Part.order; rw [he]
  rw [h1, h2]; exact h c

/-- A report that concerns no head changes nothing. -/
theorem Part.idle_contentReport {p : Part} {b : Bed} (h : HeadsQuiet p (fun o => o.source == .bed b || o.destination == .bed b)) :
    p.Idle (.contentReport b) := Part.evalHeadsWhere_quiet (HeadsQuiet.congr h rfl)
/-- A report that concerns no head changes nothing. -/
theorem Part.idle_slotReport {p : Part} {k : SlotNo} (h : HeadsQuiet p (fun o => o.source == .slot k || o.destination == .slot k)) :
    p.Idle (.slotReport k) := Part.evalHeadsWhere_quiet (HeadsQuiet.congr h rfl)
/-- A report that concerns no head changes nothing. -/
theorem Part.idle_remnantReport {p : Part} {n : Nat} (h : HeadsQuiet p (fun o => o.load.remnant? == some n)) :
    p.Idle (.remnantReport n) := Part.evalHeadsWhere_quiet (HeadsQuiet.congr h rfl)
/-- An offer to an empty list changes nothing. -/
theorem Part.idle_offer {p : Part} {b : Bed} (h : (p.bed b).waiting = []) : p.Idle (.offer b) :=
  Part.offer_none (by intro q hq; rw [show ({ p with agenda := [] } : Part).bed b = p.bed b from rfl, h] at hq; simp at hq)

/-- A number in range names its index. -/
theorem fin?_val {k : Nat} (i : Fin k) : fin? k i.val = some i := by simp [fin?, i.isLt]

/-- A number that names nothing. -/
theorem fin?_none {k n : Nat} (h : k ≤ n) : fin? k n = none := by simp [fin?]; omega

/-- The lowest-numbered element with a property, in a list of all in order. -/
theorem find_first {k : Nat} {what : Fin k → Bool} {i : Fin k} (hi : what i = true) (hlo : ∀ j, j < i → what j = false) :
    (List.ofFn (id : Fin k → Fin k)).find? what = some i := by
  rw [List.find?_eq_some_iff_getElem]
  refine ⟨hi, i.val, by simp, by simp, ?_⟩
  intro j hj; simp; exact hlo ⟨j, by omega⟩ hj

end Sys2Proof.Machine
end

