-- ==== Sys2Proof/Tests/Slice0.lean ====
section
/-! SUPPORT. The model's own tests: what WellFormed refuses, worked examples of the spec, and for each statement of Obligations.lean a
small state and operands that meet its hypotheses, with what the command leaves there. -/

namespace Sys2Proof.Tests

open Sys2Proof.Machine

-- One theorem at a time: with it Lean does not hold a thread for each evaluation below.
set_option deprecated.oldSectionVars true

/-! ## Helpers -/

/-- A state with this part and no command waiting. -/
def at_ (p : Machine.Part) : State := { part := p }

/-- The next state, when there is one. -/
def after (c : Instr) (s : State) : Option State :=
  match exec c s with
  | .next t => some t
  | _ => none

/-- The command leaves this part, and answers with this reply. -/
abbrev answered (c : Instr) (p : Machine.Part) (r : Reply) (q : Machine.Part) : Prop :=
  after c (at_ p) = some (at_ { q with ofp := q.ofp.answeredWith r })

/-- The command leaves this part. -/
abbrev leaves (c : Instr) (p q : Machine.Part) : Prop := after c (at_ p) = some (at_ q)

/-- The part a command leaves. -/
def run (c : Instr) (p : Machine.Part) : Machine.Part := ((after c (at_ p)).map State.part).getD p

/-! ## WellFormed refuses what does not fit -/

theorem test_wf_byte : Instr.wf (.jobRead 1 2 3 256) = false := by decide
theorem test_wf_word : Instr.wf (.jobOpen 1 65536) = false := by decide
theorem test_wf_tag : Instr.wf (.readStatus 65536) = false := by decide
theorem test_wf_number : Instr.wf (.store 1 4294967296) = false := by decide
theorem test_wf_coordinate : Instr.wf (.loadEntrySlot 1 0 1 2147483648 0 1 1) = false := by decide
theorem test_wf_coordinate_low : Instr.wf (.loadEntrySlot 1 0 1 (-2147483649) 0 1 1) = false := by decide
theorem test_wf_record_size : Instr.wf (.jobWrite 1 2 2 [[1, 2]]) = false := by decide
theorem test_wf_record_count : Instr.wf (.jobWrite 1 2 2 (List.replicate 10 (List.replicate 24 0))) = false := by decide
theorem test_wf_heat : Instr.wf (.remnantEnter 1 1 100 10 10 0 [] ⟨1, 0⟩) = false := by decide
theorem test_wf_unfinished_answer : Instr.wf (.badAnswer [0x5A, 2, 1, 0x81, 0]) = false ∧ Instr.wf (.badAnswer [0x5A]) = false := by decide
theorem test_wf_place : Instr.wf (.remnantRelocate 1 1 ⟨1, 256⟩) = false := by decide
theorem test_wf_stock_tag : Instr.wf (.bedDeclare 1 1 ⟨256, 1⟩ 0) = false := by decide
theorem test_wf_destination : Instr.wf (.passthrough 1 0 0x60 [0]) = false := by decide
theorem test_wf_payload : Instr.wf (.passthrough 1 8 0x60 (List.replicate 241 0)) = false := by decide +kernel
theorem test_wf_table : Instr.wf (.unknownRequest 1 0x10 .badTable) = false := by decide
theorem test_wf_no_bytes : Instr.wf (.officeFrameReceived []) = false := by decide
theorem test_wf_no_drop : Instr.wf (.officeLengthDrop []) = false := by decide
theorem test_wf_order_event : Instr.wf (.cranePollAnswer 8 0 0 true false (some (.picked, 32))) = false := by decide
theorem test_wf_events : Instr.wf (.gantryPollAnswer 1 (List.replicate 5 .pierceOk)) = false := by decide
theorem test_wf_event_field : Instr.wf (.gantryPollAnswer 1 [.stoppedAt 65536 0]) = false := by decide
theorem test_wf_answer : Instr.wf (.passthroughAnswer 1 0x60 (List.replicate 239 0)) = false := by decide +kernel
theorem test_wf_refuse : Instr.wf (.answerRefuse 1 256) = false := by decide
theorem test_wf_good : Instr.wf (.jobRead 1 2 3 8) = true := by decide

/-! ## Worked examples of the spec -/

theorem test_crc_check_value : crc16 [0x31, 0x32, 0x33, 0x34, 0x35, 0x36, 0x37, 0x38, 0x39] = 0x29B1#16 := by decide +kernel
theorem test_cosine_at_the_limit : cosTerm 36600 = 1047938 ∧ cosTerm (-36600) = 1047938 ∧ cosTerm 1448 = 1048576 := by decide
theorem test_half_rounds_upward : roundTerm 524288 = 1 ∧ roundTerm (-524288) = 0 := by decide
theorem test_eight_hundred_crossings : addLength 5000 100 0 4000000 = (100, 3) := by decide
theorem test_text_assembled : assembleText [65, 98, 45, 32, 32] = [65, 32, 45] := by decide
theorem test_read_never_wraps :
    indexList 8 6 4 1 = some [6, 7] ∧ indexList 8 1 4 255 = some [1, 0] ∧ indexList 8 5 3 0 = some [5, 5, 5] ∧ indexList 8 0 1 2 = none := by
  decide
theorem test_office_bytes_of_job_open : officeBytes ⟨0x10, 0x0102, 0, [0, 2]⟩ = [0xA7, 6, 0x10, 1, 2, 0, 0, 2, 0x2D, 0x14] := by decide +kernel


/-! ## Small states -/

/-- A job of one part, with no text: one line burned on bed 2. -/
def header : Record := .header ⟨.mill, 7⟩ 2 3 200 .fresh none 1
/-- The record memory with that job on page 0. -/
def mem : RecMem := [(0, header), (2, .part 5 100 100 false 0), (3, .pierce 100 100 1), (4, .line 200 100 2 1000), (5, .endOfJob)]
/-- Job 0 OPEN on page 0; the other jobs FREE. -/
def jobPart : Machine.Part :=
  { jst := { mem := mem, pool := [1, 2, 3], jobs := put (Vector.replicate 64 {}) 0 { state := .opened, pages := [0] } } }
/-- Bed 2 loaded, with plate MILL 7 on it. -/
def bedRec : BedRec := { loaded := true, rect := some ⟨1000, 5000, 1000, 3000⟩, origin := some ⟨1500, 1500⟩, plate := some ⟨.mill, 7⟩ }
/-- Parameters of a gantry that reaches bed 2. -/
def params : GantryParams := { loaded := true, reach := [2], window := ⟨0, 3000000, 0, 600000⟩, period := 500, depth := 8 }
/-- Gantry 1 enabled and IDLE with no backlog, bed 2 ready, job 0 OPEN. -/
def hall : Machine.Part := ((jobPart.setBed 2 bedRec).setParams 1 params).setEngine 1 { state := .idle, backlog := 0 }
/-- Remnant 4 on slot 5, remnant 9 above it; slot 6 empty; remnant 11 nowhere; remnant 12 on bed 3. -/
def stock : Machine.Part :=
  (((({ : Machine.Part }.setSlot 5 { loaded := true, position := some ⟨10, 10⟩, maxima := some (3000, 3000), stack := [4, 9] }).setSlot 6
    { loaded := true, position := some ⟨20, 10⟩, maxima := some (3000, 3000) }).setBed 3 { bedRec with plate := some ⟨.remnant, 12⟩ }).setRemnants
    [{ number := 4, grade := 3, thickness := 200, width := 500, length := 900, location := .slot 5 0 },
     { number := 9, grade := 3, thickness := 200, width := 400, length := 800, location := .slot 5 1 },
     { number := 11, grade := 3, thickness := 200, width := 700, length := 900, location := .unknown, state := .reserved, reservation := some 8 },
     { number := 12, grade := 3, thickness := 200, width := 700, length := 900, location := .bed 3 }])
/-- The same with the entry sequence past its numbers. -/
def stock12 : Machine.Part := { stock with rsu := { stock.rsu with sequence := 12 } }
/-- Crane 0 installed, TRACKING, the rack crane, with an order at its head that waits for a hook. -/
def craneRec : CraneRec := { installed := true, margin := 100, timeout := 500, rack := true, state := .tracking, last := some ⟨9, 9, false, false⟩ }
/-- An order of the office that is held for its hook. -/
def hookOrder : Order :=
  { crane := 0, origin := .office, source := .hook, destination := .outfeed, load := .plate ⟨.mill, 3⟩, requestTag := some 1,
    state := .held, held := { hookEmpty := true } }
/-- A part whose crane 0 has that order at the head of its queue, as order 0. -/
def withHead (p : Machine.Part) : Machine.Part := ((p.setCrane 0 craneRec).setOrder 0 (some hookOrder)).setOrderQueue 0 [0]

/-! ## The statements' hypotheses, each met by a small state, and what the command leaves there -/

theorem test_step_runs_the_front : ({ pending := [.reportAgeTick, .floorGrant] } : State).pending = .reportAgeTick :: [.floorGrant] := rfl
theorem test_step_idles : (State.reset).pending = [] := rfl

/-- A part whose reset input is held, one with four replies waiting, one whose waiting place is taken. -/
def heldPart : Machine.Part := coldReset true
def fullPart : Machine.Part :=
  { ofp := { sending := some (.reply ⟨1, 1, .ok, .none, false⟩), replies := List.replicate 4 ⟨0x58, 1, .ok, .none, false⟩ } }
def takenPart : Machine.Part := { ofp := { waiting := some (.readStatus 9) } }

theorem test_not_taken_while_held : heldPart.ofp.resetHeld = true ∧ leaves .reportAgeTick heldPart heldPart := by decide +kernel
theorem test_waits_for_a_reply_place :
    isRequest (.jobOpen 3 2) = true ∧ fullPart.ofp.resetHeld = false ∧ fullPart.ofp.waiting = none ∧ fullPart.ofp.hasReplyPlace = false
    ∧ leaves (.jobOpen 3 2) fullPart { fullPart with ofp := { fullPart.ofp with waiting := some (.jobOpen 3 2) } } := by decide +kernel
theorem test_dropped_at_the_waiting_place :
    isRequest (.jobOpen 3 2) = true ∧ takenPart.ofp.resetHeld = false ∧ takenPart.ofp.waiting = some (.readStatus 9)
    ∧ (.readStatus 9 : Instr) ≠ .jobOpen 3 2 ∧ leaves (.jobOpen 3 2) takenPart takenPart := by decide +kernel
theorem test_request_answered :
    requestHead? (.jobOpen 3 0) = some (kJobOpen, 3) ∧ Ready (.jobOpen 3 0) Part.cold
    ∧ answered (.jobOpen 3 0) Part.cold ⟨kJobOpen, 3, .badField, .none, false⟩ Part.cold := by decide +kernel

/-- A passthrough pending, the transmitter free; the same with a frame being sent and a reply waiting. -/
def openPass : Machine.Part := { flp := { passHeld := some 7, pending := [⟨1, .pass .diagnostic []⟩] } }
def openPassBusy : Machine.Part :=
  { openPass with ofp := { sending := some (.notice 1 (.queueEmpty 0)), replies := [⟨0x58, 1, .ok, .none, false⟩] } }

theorem test_controller_reset_ends_the_passthrough :
    requestHead? (.controllerReset 3) = some (kControllerReset, 3) ∧ Ready (.controllerReset 3) openPass
    ∧ (run (.controllerReset 3) openPass).ofp.sending = some (.reply ⟨kPassthrough, 7, .noAnswer, .none, true⟩)
    ∧ (run (.controllerReset 3) openPass).ofp.replies = [⟨kControllerReset, 3, .ok, .none, false⟩]
    ∧ Ready (.controllerReset 3) openPassBusy
    ∧ (run (.controllerReset 3) openPassBusy).ofp.sending = some (.notice 1 (.queueEmpty 0))
    ∧ (run (.controllerReset 3) openPassBusy).ofp.replies
        = [⟨0x58, 1, .ok, .none, false⟩, ⟨kPassthrough, 7, .noAnswer, .none, true⟩, ⟨kControllerReset, 3, .ok, .none, false⟩] := by
  decide +kernel

theorem test_job_open :
    Ready (.jobOpen 3 2) jobPart ∧ 2 ≤ jobPart.jst.pool.length ∧ (jobPart.job 1).state = .free ∧ (jobPart.job 0).state ≠ .free
    ∧ answered (.jobOpen 3 2) jobPart ⟨kJobOpen, 3, .ok, .jobOpened 1 2, false⟩
        { jobPart with jst := { jobPart.jst with
            pool := [3], jobs := put jobPart.jst.jobs 1 { state := .opened, pages := [1, 2] } } } := by decide +kernel

theorem test_job_write :
    Ready (.jobWrite 3 0 2 [encodeRecord (.rapid 5 6)]) jobPart ∧ (jobPart.job 0).state = .opened
    ∧ ¬ (2 ≤ 1 ∧ 1 < 2 + 1) ∧ 2 + 1 ≤ 16 * (jobPart.job 0).pages.length ∧ (jobPart.job 0).pages.Nodup
    ∧ parseRecords [encodeRecord (.rapid 5 6)] = some [.rapid 5 6]
    ∧ answered (.jobWrite 3 0 2 [encodeRecord (.rapid 5 6)]) jobPart ⟨kJobWrite, 3, .ok, .none, false⟩
        { jobPart with jst := { jobPart.jst with mem := Memory.write mem 2 (.rapid 5 6) } } := by decide +kernel

theorem test_job_read :
    Ready (.jobRead 3 0 4 8) jobPart ∧ (jobPart.job 0).state ≠ .free ∧ 4 < 16 * (jobPart.job 0).pages.length
    ∧ answered (.jobRead 3 0 14 8) jobPart ⟨kJobRead, 3, .ok, .records [.empty, .empty], false⟩ jobPart := by decide +kernel

/-- The hall with job 5 QUEUED on gantry 1 already. -/
def busyHall : Machine.Part := hall.setQueue 1 [5]

theorem test_job_enqueue :
    Ready (.jobEnqueue 3 0 1) busyHall ∧ (busyHall.job 0).state = .opened ∧ busyHall.record 0 0 = header ∧ (busyHall.bed 2).loaded = true
    ∧ (busyHall.params 1).loaded = true ∧ 2 ∈ (busyHall.params 1).reach ∧ busyHall.queue 1 ≠ []
    ∧ answered (.jobEnqueue 3 0 1) busyHall ⟨kJobEnqueue, 3, .ok, .enqueued 2, false⟩
        ((busyHall.setJob 0 { busyHall.job 0 with state := .queued, gantry := some 1 }).setQueue 1 [5, 0]) := by decide +kernel

theorem test_job_starts :
    Ready (.jobEnqueue 3 0 1) hall ∧ (hall.job 0).state = .opened ∧ hall.record 0 0 = header ∧ (hall.bed 2).loaded = true
    ∧ (hall.params 1).loaded = true ∧ 2 ∈ (hall.params 1).reach ∧ hall.queue 1 = [] ∧ (hall.engine 1).state = .idle
    ∧ (hall.engine 1).bedRequest = .none ∧ (hall.engine 1).held.office = false ∧ (hall.engine 1).idleReference = false
    ∧ (hall.bed 2).owner = none ∧ (hall.bed 2).claim = none ∧ hall.bedClear 2 = true ∧ hall.bodyWellFormed 0 1 = true
    ∧ plateCheck (hall.bed 2) ⟨.mill, 7⟩ .fresh = none ∧ hall.registration 1 = none
    ∧ ((run (.jobEnqueue 3 0 1) hall).engine 1).state = .register ∧ ((run (.jobEnqueue 3 0 1) hall).bed 2).owner = some 1
    ∧ (run (.jobEnqueue 3 0 1) hall).flp.pending = [⟨1, .register 2 (some ⟨1500, 1500⟩)⟩] := by decide +kernel

/-- Job 0 on gantry 1 in REGISTER on bed 2, a poll in flight. -/
def registering : Machine.Part :=
  let p := ((hall.setJob 0 { state := .active, gantry := some 1, pages := [0] }).setBed 2 { bedRec with owner := some 1 }).setEngine 1
    { state := .register, job := some 0, bedRequest := .owner, backlog := 0, nextRecord := some 2 }
  { p.setMarks 1 { marks := [⟨1, 8, 1, 1, true, [65], .queued⟩], sendList := [1], phase := .first } with
    flp := { p.flp with inFlight := some ⟨⟨1, .poll false⟩, 4⟩, pending := [⟨1, .register 2 none⟩, ⟨2, .reference⟩] } }

theorem test_register_failed_ends_the_job :
    Live registering ∧ (registering.station (gantryStation 1)).lost = false ∧ (registering.engine 1).state = .register
    ∧ (registering.engine 1).job = some 0 ∧ (registering.engine 1).pendingOutcome = none ∧ (registering.engine 1).counters.partsCut = 0
    ∧ (registering.engine 1).backlog = 0 ∧ registering.queue 1 = [] ∧ registering.record 0 0 = header
    ∧ (registering.job 0).address 1 = some 1 ∧ (registering.bed 2).claim = none ∧ (registering.bed 2).waiting = []
    ∧ (let t := run (.gantryPollAnswer 2 [.registerFailed]) registering
       Memory.read t.jst.mem 1 = .completion { outcome := .registerFail, counters := {}, stopRecord := none }
       ∧ t.job 0 = { state := .completed, gantry := some 1, pages := [0], inCompletion := true } ∧ t.jst.completions = [0]
       ∧ t.ofp = registering.ofp.given (.completionPending 0 .registerFail) ∧ t.bed 2 = bedRec ∧ t.engine 1 = { state := .idle, backlog := 0 }
       ∧ t.marks 1 = {} ∧ t.flp.pending = [⟨2, .reference⟩] ∧ t.flp.inFlight = none) := by decide +kernel

theorem test_job_release :
    Ready (.jobRelease 3 0) jobPart ∧ (jobPart.job 0).state = .opened
    ∧ answered (.jobRelease 3 0) jobPart ⟨kJobRelease, 3, .ok, .none, false⟩
        { jobPart with jst := { jobPart.jst with pool := [1, 2, 3, 0], jobs := put jobPart.jst.jobs 0 {} } }
    ∧ Ready (.jobRelease 3 1) jobPart ∧ (jobPart.job 1).state = .free
    ∧ answered (.jobRelease 3 1) jobPart ⟨kJobRelease, 3, .badJob, .none, false⟩ jobPart
    ∧ answered (.jobRelease 3 64) jobPart ⟨kJobRelease, 3, .badJob, .none, false⟩ jobPart := by decide +kernel

/-- Job 0 COMPLETED and at the head of the completion queue. -/
def donePart : Machine.Part :=
  { jst := { mem := mem, pool := [1], completions := [0],
             jobs := put (Vector.replicate 64 {}) 0 { state := .completed, gantry := some 1, pages := [0], inCompletion := true } } }

theorem test_job_release_in_use :
    Ready (.jobRelease 3 0) donePart ∧ (donePart.job 0).state = .completed ∧ (donePart.job 0).inCompletion = true
    ∧ answered (.jobRelease 3 0) donePart ⟨kJobRelease, 3, .inUse, .none, false⟩ donePart := by decide +kernel

theorem test_completion_ack :
    Ready (.completionAck 3) donePart ∧ donePart.jst.completions = [0]
    ∧ answered (.completionAck 3) donePart ⟨kCompletionAck, 3, .ok, .acknowledged 0 0 none, false⟩
        { donePart with jst := { donePart.jst with
            completions := [], jobs := put donePart.jst.jobs 0 { donePart.job 0 with inCompletion := false } } }
    ∧ Ready (.completionAck 3) jobPart ∧ jobPart.jst.completions = []
    ∧ answered (.completionAck 3) jobPart ⟨kCompletionAck, 3, .state, .none, false⟩ jobPart := by decide +kernel

theorem test_completion_ack_and_release :
    Ready (.completionAckAndRelease 3) donePart ∧ donePart.jst.completions = [0]
    ∧ answered (.completionAckAndRelease 3) donePart ⟨kCompletionAckAndRelease, 3, .ok, .released 0 .empty 0 none, false⟩
        { donePart with jst := { donePart.jst with completions := [], pool := [1, 0], jobs := put donePart.jst.jobs 0 {} } }
    ∧ Ready (.completionAckAndRelease 3) jobPart ∧ jobPart.jst.completions = []
    ∧ answered (.completionAckAndRelease 3) jobPart ⟨kCompletionAckAndRelease, 3, .state, .none, false⟩ jobPart := by decide +kernel

theorem test_gantry_enable :
    Ready (.gantryEnable 3 1) (hall.setEngine 1 { state := .fault, backlog := 1 }) ∧ (hall.params 1).loaded = true
    ∧ (((run (.gantryEnable 3 1) (hall.setEngine 1 { state := .fault, backlog := 1 })).engine 1).state = .init)
    ∧ ((run (.gantryEnable 3 1) (hall.setEngine 1 { state := .fault, backlog := 1 })).engine 1).backlog = 3
    ∧ (run (.gantryEnable 3 1) (hall.setEngine 1 {})).flp.pending = [⟨1, params.initFrame⟩] := by decide +kernel

theorem test_gantry_disable :
    Ready (.gantryDisable 3 1) hall ∧ (hall.engine 1).state ≠ .off ∧ (hall.engine 1).state.mayBurn = false ∧ (hall.engine 1).job = none
    ∧ (hall.engine 1).bedRequest = .none
    ∧ answered (.gantryDisable 3 1) hall ⟨kGantryDisable, 3, .ok, .none, false⟩ (hall.setEngine 1 { state := .off, backlog := 0 }) := by
  decide +kernel

/-- Gantry 1 waits for bed 2. -/
def waitingHall : Machine.Part :=
  (hall.setEngine 1 { state := .idle, backlog := 0, bedRequest := .waiting }).setBed 2
    { bedRec with owner := some 3, waiting := [.burn 1 2, .burn 0 2] }

theorem test_gantry_hold :
    Ready (.gantryHold 3 1) hall ∧ (hall.engine 1).bedRequest ≠ .waiting
    ∧ answered (.gantryHold 3 1) hall ⟨kGantryHold, 3, .ok, .none, false⟩
        (hall.setEngine 1 { hall.engine 1 with held := { office := true } })
    ∧ Ready (.gantryHold 3 1) waitingHall ∧ (waitingHall.engine 1).state = .idle ∧ (waitingHall.engine 1).bedRequest = .waiting
    ∧ answered (.gantryHold 3 1) waitingHall ⟨kGantryHold, 3, .ok, .none, false⟩
        ((waitingHall.setEngine 1 { waitingHall.engine 1 with bedRequest := .none, held := { office := true } }).setBed 2
          { bedRec with owner := some 3, waiting := [.burn 0 2] }) := by decide +kernel

theorem test_gantry_release :
    Ready (.gantryRelease 3 1) hall ∧ (hall.engine 1).held.office = false
    ∧ answered (.gantryRelease 3 1) hall ⟨kGantryRelease, 3, .ok, .none, false⟩ hall
    ∧ Ready (.gantryRelease 3 0) (hall.setEngine 0 { state := .cut, held := { office := true } })
    ∧ answered (.gantryRelease 3 0) (hall.setEngine 0 { state := .cut, held := { office := true } }) ⟨kGantryRelease, 3, .ok, .none, false⟩
        (hall.setEngine 0 { state := .cut }) := by decide +kernel

/-- Part 2 of the job on gantry 1 has an unresolved failed mark. -/
def failedMarks : MarkContext := { marks := [⟨1, 8, 1, 1, true, [65], .good⟩, ⟨2, 9, 1, 1, true, [65], .failed⟩], unresolved := [2] }
def failedPart : Machine.Part := (hall.setMarks 1 failedMarks).setEngine 1 { state := .cut }

theorem test_part_decision :
    Ready (.partDecision 3 1 2 0) failedPart ∧ 2 ∈ (failedPart.marks 1).unresolved ∧ (failedPart.engine 1).state ≠ .held
    ∧ (failedPart.marks 1).phase ≠ .first
    ∧ answered (.partDecision 3 1 2 1) failedPart ⟨kPartDecision, 3, .ok, .none, false⟩
        (failedPart.setMarks 1
          { marks := [⟨1, 8, 1, 1, true, [65], .good⟩, ⟨2, 9, 1, 1, true, [65], .unmarked⟩], unresolved := [] })
    ∧ (((run (.partDecision 3 1 2 0) failedPart).marks 1).marks.map MarkEntry.status = [.good, .skip])
    ∧ (((run (.partDecision 3 1 2 2) failedPart).marks 1).marks.map MarkEntry.status = [.good, .retry]) := by decide +kernel

theorem test_part_decision_not_found :
    Ready (.partDecision 3 1 1 2) failedPart ∧ 1 ∉ (failedPart.marks 1).unresolved
    ∧ answered (.partDecision 3 1 1 2) failedPart ⟨kPartDecision, 3, .notFound, .none, false⟩ failedPart := by decide +kernel

/-- Bed 2 loaded and EMPTY, with a registration of gantry 0 for another bed. -/
def emptyBed : Machine.Part := (hall.setBed 2 { bedRec with plate := none }).setRegistration 0 (some ⟨3, ⟨.mill, 1⟩, 0, 0, 0⟩)

theorem test_bed_declare :
    Ready (.bedDeclare 3 2 ⟨1, 7⟩ 1) emptyBed ∧ condition? 1 = some .continuation ∧ (emptyBed.bed 2).owner = none ∧ (emptyBed.bed 2).claim = none
    ∧ (emptyBed.bed 2).loaded = true ∧ (emptyBed.bed 2).plate = none ∧ (emptyBed.bed 2).skeleton = false
    ∧ (∀ x : Bed, x ≠ 2 → (emptyBed.bed x).plate ≠ some ⟨.mill, 7⟩) ∧ (emptyBed.bed 2).waiting = []
    ∧ HeadsQuiet emptyBed (fun o => o.source == .bed 2 || o.destination == .bed 2)
    ∧ answered (.bedDeclare 3 2 ⟨1, 7⟩ 1) emptyBed ⟨kBedDeclare, 3, .ok, .none, false⟩
        (emptyBed.setBed 2 { bedRec with partlyCut := true }) := by decide +kernel

/-- Bed 2 with a skeleton only; bed 2 with a plate that gantry 1 has registered. -/
def skeletonBed : Machine.Part := hall.setBed 2 { bedRec with plate := none, skeleton := true }
def registeredBed : Machine.Part := hall.setRegistration 1 (some ⟨2, ⟨.mill, 7⟩, 0, 0, 0⟩)

theorem test_bed_clear_plate :
    Ready (.bedClear 3 2) registeredBed ∧ (registeredBed.bed 2).plate = some ⟨.mill, 7⟩ ∧ (registeredBed.bed 2).owner = none
    ∧ (registeredBed.bed 2).claim = none ∧ (registeredBed.bed 2).waiting = []
    ∧ HeadsQuiet registeredBed (fun o => o.source == .bed 2 || o.destination == .bed 2)
    ∧ answered (.bedClear 3 2) registeredBed ⟨kBedClear, 3, .ok, .none, false⟩
        ((registeredBed.setBed 2 { bedRec with plate := none }).setRegistration 1 none) := by decide +kernel

theorem test_bed_clear_skeleton :
    Ready (.bedClear 3 2) skeletonBed ∧ (skeletonBed.bed 2).plate = none ∧ (skeletonBed.bed 2).waiting = []
    ∧ answered (.bedClear 3 2) skeletonBed ⟨kBedClear, 3, .ok, .none, false⟩ (skeletonBed.setBed 2 { bedRec with plate := none }) := by
  decide +kernel

theorem test_bed_clear_remnant :
    Ready (.bedClear 3 3) stock ∧ (stock.bed 3).plate = some ⟨.remnant, 12⟩ ∧ HeadsQuiet stock (fun o => o.load.remnant? == some 12)
    ∧ (stock.bed 3).owner = none ∧ (stock.bed 3).claim = none ∧ (stock.bed 3).waiting = []
    ∧ answered (.bedClear 3 3) stock ⟨kBedClear, 3, .ok, .none, false⟩
        (((stock.setBed 3 { bedRec with plate := none }).setRemnants
          (stock.rsu.remnants.map (fun r => if r.number = 12 then { r with location := .unknown } else r)))) := by decide +kernel

/-- A crane with an order at its head, and bed 2 EMPTY. -/
def orderPart : Machine.Part := withHead emptyBed

theorem test_crane_order :
    Ready (.craneOrder 3 0 ⟨2, 0⟩ ⟨0, 2⟩ ⟨1, 4⟩) orderPart ∧ place? ⟨2, 0⟩ = some .infeed ∧ place? ⟨0, 2⟩ = some (.bed 2)
    ∧ load? ⟨1, 4⟩ = some (.plate ⟨.mill, 4⟩) ∧ combinationOk .infeed (.bed 2) (.plate ⟨.mill, 4⟩) = true
    ∧ orderPart.placeUsable 0 .infeed = true ∧ orderPart.placeUsable 0 (.bed 2) = true ∧ orderPart.order 1 = none
    ∧ orderPart.order 0 ≠ none ∧ orderPart.orderQueue 0 ≠ []
    ∧ answered (.craneOrder 3 0 ⟨2, 0⟩ ⟨0, 2⟩ ⟨1, 4⟩) orderPart ⟨kCraneOrder, 3, .ok, .orderPlaced 1 2, false⟩
        ((orderPart.setOrder 1 (some { crane := 0, origin := .office, source := .infeed, destination := .bed 2, load := .plate ⟨.mill, 4⟩,
                                       requestTag := some 3 })).setOrderQueue 0 [0, 1]) := by decide +kernel

/-- Crane 0 TRACKING with an empty queue, bed 2 EMPTY. -/
def freeCrane : Machine.Part := emptyBed.setCrane 0 craneRec

theorem test_order_released :
    Ready (.craneOrder 3 0 ⟨2, 0⟩ ⟨0, 2⟩ ⟨1, 4⟩) freeCrane ∧ (freeCrane.bed 2).loaded = true ∧ (freeCrane.bed 2).owner = none
    ∧ (freeCrane.bed 2).claim = none ∧ (freeCrane.bed 2).plate = none ∧ (freeCrane.bed 2).skeleton = false
    ∧ (freeCrane.crane 0).state = .tracking ∧ freeCrane.orderQueue 0 = [] ∧ freeCrane.order 0 = none
    ∧ ((run (.craneOrder 3 0 ⟨2, 0⟩ ⟨0, 2⟩ ⟨1, 4⟩) freeCrane).order 0).map (fun o => (o.state, o.destClaim, o.sourceClaim, o.answered))
        = some (.sent, true, false, false)
    ∧ ((run (.craneOrder 3 0 ⟨2, 0⟩ ⟨0, 2⟩ ⟨1, 4⟩) freeCrane).bed 2).claim = some 0
    ∧ (run (.craneOrder 3 0 ⟨2, 0⟩ ⟨0, 2⟩ ⟨1, 4⟩) freeCrane).flp.pending
        = [⟨4, .order 0 ⟨.infeed, none⟩ ⟨.bed 2, some ⟨1500, 1500⟩⟩ (.plate ⟨.mill, 4⟩)⟩] := by decide +kernel

/-- A plate order from bed 2 to the outfeed under way on crane 0, a poll in flight. -/
def plateOrder : Order :=
  { crane := 0, origin := .office, source := .bed 2, destination := .outfeed, load := .plate ⟨.mill, 7⟩, requestTag := some 1,
    state := .sent, sourceClaim := true, answered := true }
def fetching : Machine.Part :=
  let p := (((registeredBed.setBed 2 { bedRec with claim := some 0, partlyCut := true }).setCrane 0 craneRec).setOrder 0
    (some plateOrder)).setOrderQueue 0 [0]
  { p with flp := { p.flp with inFlight := some ⟨⟨4, .poll false⟩, 4⟩ } }
/-- The same order PICKED. -/
def carrying : Machine.Part :=
  (fetching.setOrder 0 (some { plateOrder with state := .picked, sourceClaim := false })).setBed 2 { bedRec with plate := none }

theorem test_order_events :
    Live fetching ∧ (fetching.station (craneStation 0)).lost = false ∧ (fetching.crane 0).state = .tracking ∧ HallQuiet fetching
    ∧ fetching.orderQueue 0 = [0] ∧ fetching.orderQueue (otherCrane 0) = [] ∧ fetching.order 0 = some plateOrder
    ∧ plateOrder.waiting = false ∧ plateOrder.destClaim = false
    ∧ (let t := run (.cranePollAnswer 8 9 9 true false (some (.picked, 0))) fetching
       t.order 0 = some { plateOrder with state := .picked, sourceClaim := false } ∧ t.orderQueue 0 = [0]
       ∧ t.bed 2 = { bedRec with plate := none } ∧ t.registration 1 = none ∧ t.ofp = fetching.ofp)
    ∧ Live carrying ∧ HallQuiet carrying
    ∧ (let t := run (.cranePollAnswer 8 9 9 true false (some (.placed, 0))) carrying
       t.order 0 = none ∧ t.orderQueue 0 = [] ∧ t.bed 2 = carrying.bed 2
       ∧ t.ofp = carrying.ofp.given (.craneOrder 0 0 .office (.bed 2) .outfeed (.plate ⟨.mill, 7⟩) .done none (some 1)))
    ∧ (let t := run (.cranePollAnswer 8 9 9 true false (some (.aborted, 0))) fetching
       t.order 0 = none ∧ t.orderQueue 0 = [] ∧ t.bed 2 = { bedRec with partlyCut := true }
       ∧ t.ofp = fetching.ofp.given (.craneOrder 0 0 .office (.bed 2) .outfeed (.plate ⟨.mill, 7⟩) .aborted (some .crane) (some 1))) := by
  decide +kernel

/-- A second order of the office, QUEUED behind the head. -/
def secondOrder : Order := { hookOrder with state := .queued, held := {}, load := .skeleton, source := .bed 2 }
def twoOrders : Machine.Part := (orderPart.setOrder 1 (some secondOrder)).setOrderQueue 0 [0, 1]

theorem test_crane_order_cancel :
    Ready (.craneOrderCancel 3 1) twoOrders ∧ twoOrders.order 1 = some secondOrder ∧ secondOrder.state = .queued ∧ secondOrder.origin = .office
    ∧ secondOrder.waiting = false ∧ (twoOrders.orderQueue 0).head? ≠ some 1
    ∧ answered (.craneOrderCancel 3 1) twoOrders ⟨kCraneOrderCancel, 3, .ok, .none, false⟩
        (((twoOrders.setOrderQueue 0 [0]).setOrder 1 none).notify
          (.craneOrder 1 0 .office (.bed 2) .outfeed .skeleton .cancelled none (some 1))) := by decide +kernel

/-- What a statement about slot 6 of the small stock asks. -/
abbrev slotFree (p : Machine.Part) : Prop :=
  (p.slot 6).claim = none ∧ (p.slot 6).loaded = true ∧ p.committed 6 < 4 ∧ p.slotReserved 6 none = false
    ∧ HeadsQuiet p (fun o => o.source == .slot 6 || o.destination == .slot 6)

theorem test_remnant_enter :
    slotFree stock12 ∧ Ready (.remnantEnter 3 4 100 600 700 1 (List.replicate 12 65) ⟨0, 6⟩) stock12
    ∧ (∀ r ∈ stock12.rsu.remnants, r.number ≤ stock12.rsu.sequence) ∧ heat? 1 (List.replicate 12 65) = some (some [65])
    ∧ (stock12.slot 6).admits 600 700 = true ∧ stock12.rsu.remnants.length < 128
    ∧ HeadsQuiet stock12 (fun o => o.load.remnant? == some 13)
    ∧ answered (.remnantEnter 3 4 100 600 700 1 (List.replicate 12 65) ⟨0, 6⟩) stock12 ⟨kRemnantEnter, 3, .ok, .remnantNumber 13, false⟩
        { stock12 with rsu := { stock12.rsu with
            sequence := 13,
            remnants := stock12.rsu.remnants ++
              [{ number := 13, grade := 4, thickness := 100, width := 600, length := 700, heat := some [65], location := .slot 6 0 }],
            slots := put stock12.rsu.slots 6 { stock12.slot 6 with stack := [13] } } } := by decide +kernel

theorem test_remnant_relocate :
    slotFree stock12 ∧ Ready (.remnantRelocate 3 11 ⟨0, 6⟩) stock12 ∧ (stock12.remnant 11).map Remnant.location = some .unknown
    ∧ (∀ b : Bed, (stock12.bed b).plate ≠ some ⟨.remnant, 11⟩) ∧ (stock12.slot 6).admits 700 900 = true
    ∧ HeadsQuiet stock12 (fun o => o.load.remnant? == some 11)
    ∧ answered (.remnantRelocate 3 11 ⟨0, 6⟩) stock12 ⟨kRemnantRelocate, 3, .ok, .none, false⟩
        { stock12 with rsu := { stock12.rsu with
            remnants := stock12.rsu.remnants.map (fun r => if r.number = 11 then { r with location := .slot 6 0 } else r),
            slots := put stock12.rsu.slots 6 { stock12.slot 6 with stack := [11] } } } := by decide +kernel

theorem test_remnant_remove :
    Ready (.remnantRemove 3 9) stock ∧ (stock.remnant 9).map (fun r => (r.state, r.location)) = some (.free, .slot 5 1)
    ∧ stock.remnantInOrders 9 = false ∧ (stock.slot 5).claim = none ∧ (stock.slot 5).stack.getLast? = some 9
    ∧ HeadsQuiet stock (fun o => o.load.remnant? == some 9) ∧ HeadsQuiet stock (fun o => o.source == .slot 5 || o.destination == .slot 5)
    ∧ answered (.remnantRemove 3 9) stock ⟨kRemnantRemove, 3, .ok, .none, false⟩
        ((stock.setSlot 5 { stock.slot 5 with stack := [4] }).setRemnants (stock.rsu.remnants.filter (·.number != 9)))
    ∧ (stock.remnant 11).map Remnant.location = some .unknown
    ∧ answered (.remnantRemove 3 11) stock ⟨kRemnantRemove, 3, .ok, .none, false⟩
        (stock.setRemnants (stock.rsu.remnants.filter (·.number != 11))) := by decide +kernel

theorem test_remnant_remove_refused :
    Ready (.remnantRemove 3 5) stock ∧ (∀ r ∈ stock.rsu.remnants, r.number ≠ 5)
    ∧ answered (.remnantRemove 3 5) stock ⟨kRemnantRemove, 3, .notFound, .none, false⟩ stock
    ∧ (stock.remnant 4).map Remnant.location = some (.slot 5 0) ∧ (stock.slot 5).stack.getLast? ≠ some 4
    ∧ answered (.remnantRemove 3 4) stock ⟨kRemnantRemove, 3, .state, .none, false⟩ stock := by decide +kernel

theorem test_remnant_remove_from_a_bed :
    (stock.remnant 12).map Remnant.location = some (.bed 3) ∧ (stock.bed 3).owner = none ∧ (stock.bed 3).claim = none
    ∧ HeadsQuiet stock (fun o => o.load.remnant? == some 12)
    ∧ answered (.remnantRemove 3 12) stock ⟨kRemnantRemove, 3, .ok, .none, false⟩
        (stock.setRemnants (stock.rsu.remnants.filter (·.number != 12))) := by decide +kernel

/-- Slot 5 claimed; bed 3 claimed; bed 3 owned; remnant 12 the load of an order. -/
def claimedSlot : Machine.Part := stock.setSlot 5 { stock.slot 5 with claim := some 1 }
def claimedBed : Machine.Part := stock.setBed 3 { stock.bed 3 with claim := some 1 }
def ownedBed : Machine.Part := stock.setBed 3 { stock.bed 3 with owner := some 1 }
def orderedPart : Machine.Part := stock.setOrder 1 (some { hookOrder with load := .plate ⟨.remnant, 12⟩ })

theorem test_remnant_remove_below_the_top_of_a_claimed_slot :
    (claimedSlot.slot 5).claim ≠ none ∧ (claimedSlot.remnant 4).map Remnant.location = some (.slot 5 0)
    ∧ (claimedSlot.slot 5).stack.getLast? ≠ some 4
    ∧ answered (.remnantRemove 3 4) claimedSlot ⟨kRemnantRemove, 3, .state, .none, false⟩ claimedSlot
    ∧ (claimedSlot.setOrder 1 (some { hookOrder with load := .plate ⟨.remnant, 4⟩ })).remnantInOrders 4 = true
    ∧ answered (.remnantRemove 3 4) (claimedSlot.setOrder 1 (some { hookOrder with load := .plate ⟨.remnant, 4⟩ }))
        ⟨kRemnantRemove, 3, .inUse, .none, false⟩ (claimedSlot.setOrder 1 (some { hookOrder with load := .plate ⟨.remnant, 4⟩ })) := by
  decide +kernel

theorem test_remnant_remove_held :
    (claimedSlot.slot 5).claim ≠ none ∧ answered (.remnantRemove 3 9) claimedSlot ⟨kRemnantRemove, 3, .inUse, .none, false⟩ claimedSlot
    ∧ (claimedBed.bed 3).claim ≠ none ∧ answered (.remnantRemove 3 12) claimedBed ⟨kRemnantRemove, 3, .inUse, .none, false⟩ claimedBed
    ∧ (ownedBed.bed 3).owner ≠ none ∧ answered (.remnantRemove 3 12) ownedBed ⟨kRemnantRemove, 3, .inUse, .none, false⟩ ownedBed
    ∧ orderedPart.remnantInOrders 12 = true
    ∧ answered (.remnantRemove 3 12) orderedPart ⟨kRemnantRemove, 3, .inUse, .none, false⟩ orderedPart := by decide +kernel

/-- Remnant 12 on its way. -/
def movingPart : Machine.Part :=
  stock.setRemnants [{ number := 12, grade := 3, thickness := 200, width := 700, length := 900, location := .hook 0, state := .inTransit }]

theorem test_remnant_remove_in_use :
    Ready (.remnantRemove 3 12) movingPart ∧ (movingPart.remnant 12).map Remnant.state = some .inTransit
    ∧ answered (.remnantRemove 3 12) movingPart ⟨kRemnantRemove, 3, .inUse, .none, false⟩ movingPart := by decide +kernel

theorem test_remnant_unreserve :
    Ready (.remnantUnreserve 3 11) stock ∧ (stock.remnant 11).map Remnant.state = some .reserved
    ∧ (stock.rsu.remnants.map Remnant.number).Nodup ∧ HeadsQuiet stock (fun o => o.load.remnant? == some 11)
    ∧ answered (.remnantUnreserve 3 11) stock ⟨kRemnantUnreserve, 3, .ok, .none, false⟩
        (stock.setRemnants (stock.rsu.remnants.map (fun r =>
          if r.number = 11 then { r with state := .free, reservation := none } else r))) := by decide +kernel

theorem test_remnant_unreserve_refused :
    Ready (.remnantUnreserve 3 5) stock ∧ (∀ r ∈ stock.rsu.remnants, r.number ≠ 5)
    ∧ answered (.remnantUnreserve 3 5) stock ⟨kRemnantUnreserve, 3, .notFound, .none, false⟩ stock
    ∧ Ready (.remnantUnreserve 3 4) stock ∧ (stock.remnant 4).map Remnant.state = some .free
    ∧ answered (.remnantUnreserve 3 4) stock ⟨kRemnantUnreserve, 3, .state, .none, false⟩ stock := by decide +kernel

/-- A RESERVED remnant on a slot, where an order of the head has its destination. -/
def reservedTop : Machine.Part :=
  stock.setRemnants [{ number := 9, grade := 3, thickness := 200, width := 400, length := 800, location := .slot 5 1, state := .reserved,
                       reservation := some 8, restack := [] }]

theorem test_remnant_unreserve_on_a_slot :
    Ready (.remnantUnreserve 3 9) reservedTop ∧ HeadsQuiet reservedTop (fun o => o.source == .slot 5 || o.destination == .slot 5)
    ∧ HeadsQuiet reservedTop (fun o => o.load.remnant? == some 9)
    ∧ answered (.remnantUnreserve 3 9) reservedTop ⟨kRemnantUnreserve, 3, .ok, .none, false⟩
        (reservedTop.setRemnants (reservedTop.rsu.remnants.map (fun r => { r with state := .free, reservation := none }))) := by decide +kernel

/-- The stock with its rack crane at work. -/
def storePart : Machine.Part := withHead stock

theorem test_store :
    Ready (.store 3 12) storePart ∧ (storePart.remnant 12).map (fun r => (r.location, r.state)) = some (.bed 3, .free)
    ∧ (storePart.bed 3).owner = none ∧ (storePart.bed 3).claim = none ∧ storePart.remnantInOrders 12 = false
    ∧ storePart.rackCrane = some 0 ∧ storePart.rsu.digReserve < storePart.freeRackPlaces ∧ storePart.slotChoice 700 900 [] [] = some 6
    ∧ storePart.order 1 = none ∧ storePart.order 0 ≠ none ∧ storePart.orderQueue 0 ≠ []
    ∧ answered (.store 3 12) storePart ⟨kStore, 3, .ok, .stored 1 6, false⟩
        ((storePart.setOrder 1 (some { crane := 0, origin := .stock, source := .bed 3, destination := .slot 6,
                                       load := .plate ⟨.remnant, 12⟩, requestTag := some 3 })).setOrderQueue 0 [0, 1]) := by decide +kernel

/-- What a fit asks for 300 by 700, turned if need be, above its place. -/
def fit : FitRequest := ⟨3, 200, 300, 700, true, false⟩
/-- The winner: remnant 9, on top of slot 5. -/
def winner : Option Fitting := stock.bestFit fit

theorem test_remnant_request :
    Ready (.remnantRequest 3 3 200 300 700 1 0 77) stock ∧ stock.marginFor 200 = 0
    ∧ winner.map (fun f => (f.remnant.number, f.plan, f.score, f.rotated)) = some (9, [], 11, false)
    ∧ HeadsQuiet stock (fun o => o.load.remnant? == some 9)
    ∧ answered (.remnantRequest 3 3 200 300 700 1 0 77) stock ⟨kRemnantRequest, 3, .ok, .found 9 (.slot 5 1) 11 false [], false⟩
        (stock.setRemnants (stock.rsu.remnants.map (fun r =>
          if r.number = 9 then { r with state := .reserved, reservation := some 77 } else r))) := by decide +kernel

theorem test_remnant_request_no_fit :
    Ready (.remnantRequest 3 9 200 300 700 1 0 77) stock ∧ stock.bestFit { fit with grade := 9 } = none
    ∧ answered (.remnantRequest 3 9 200 300 700 1 0 77) stock ⟨kRemnantRequest, 3, .noFit, .none, false⟩ stock := by decide +kernel

theorem test_slot_choice :
    stock.slotChoice 600 700 [] [] = some 6 ∧ stock.slotChoice 600 700 [6] [] = some 5 ∧ stock.slotChoice 600 700 [] [6, 6, 6] = some 5
    ∧ stock.slotChoice 3001 700 [] [] = none ∧ stock.slotChoice 600 700 [5] [6, 6, 6, 6] = none := by decide +kernel

/-- A fit that may dig, with rack places enough. -/
def deepFit : FitRequest := { fit with width := 450, length := 850, deep := true }
def rackStock : Machine.Part := { stock.setCrane 0 craneRec with rsu := { stock.rsu with digReserve := 2 } }

theorem test_fitting :
    ((stock.remnant 12).bind (stock.fitting fit)).map (fun f => (f.plan, f.score, f.rotated)) = some ([], 42, false)
    ∧ ((stock.remnant 9).bind (stock.fitting { fit with width := 500, length := 400 })).map (fun f => (f.score, f.rotated)) = some (12, true)
    ∧ ((rackStock.remnant 4).bind (rackStock.fitting deepFit)).map (fun f => (f.plan, f.score)) = some ([(9, 6)], 206)
    ∧ ((stock.remnant 4).bind (stock.fitting { deepFit with deep := false })).isNone = true
    ∧ ((stock.remnant 11).bind (stock.fitting fit)).isNone = true := by decide +kernel

theorem test_winner_exists : ∃ f, stock.bestFit fit = some f := Option.isSome_iff_exists.1 (by decide +kernel : (stock.bestFit fit).isSome = true)

theorem test_load_bed :
    Ready (.loadEntryBed 3 4 1 0 1000 0 500 1000 500) (withHead hall) ∧ ((withHead hall).bed 4).owner = none ∧ ((withHead hall).bed 4).claim = none
    ∧ (∀ g r, (withHead hall).registration g = some r → r.bed ≠ 4)
    ∧ (∀ (x : Bed) (r : Rect), x ≠ 4 → ((withHead hall).bed x).loaded = true → ((withHead hall).bed x).rect = some r →
        r.xHi ≤ 0 ∨ 1000 ≤ r.xLo ∨ r.yHi ≤ 0 ∨ 500 ≤ r.yLo)
    ∧ answered (.loadEntryBed 3 4 1 0 1000 0 500 1000 500) (withHead hall) ⟨kLoadEntry, 3, .ok, .none, false⟩
        (((withHead hall).setBed 4 { loaded := true, rect := some ⟨0, 1000, 0, 500⟩, origin := some ⟨1000, 500⟩ }).setPresence 0 4
          ⟨.present, 0⟩) := by
  refine ⟨by decide +kernel, by decide +kernel, by decide +kernel, fun g r h => ?_, fun x r _ hl h => ?_, by decide +kernel⟩
  · have : (withHead hall).registration g = none :=
      (by decide +kernel : ∀ g : Gantry, (withHead hall).registration g = none) g
    rw [this] at h; cases h
  · have : ((withHead hall).bed x).loaded = true → ((withHead hall).bed x).rect = some ⟨1000, 5000, 1000, 3000⟩ :=
      (by decide +kernel : ∀ x : Bed, ((withHead hall).bed x).loaded = true →
        ((withHead hall).bed x).rect = some ⟨1000, 5000, 1000, 3000⟩) x
    rw [this hl] at h; cases h; decide

theorem test_unload_bed :
    Ready (.loadEntryBed 3 2 0 9 0 9 0 0 0) hall ∧ hall.bedInJobs 2 = false ∧ hall.placeInOrders (.bed 2) = false ∧ (hall.bed 2).waiting = []
    ∧ hall.bedClear 2 = true
    ∧ answered (.loadEntryBed 3 2 0 9 0 9 0 0 0) hall ⟨kLoadEntry, 3, .ok, .none, false⟩
        (hall.setBed 2 { bedRec with loaded := false, rect := none, origin := none }) := by decide +kernel

theorem test_load_gantry :
    Ready (.loadEntryGantry 3 1 1 5 0 100 0 50 0 7 1 2 64) jobPart ∧ (jobPart.engine 1).state = .off ∧ noticeMode? 2 = some .batch
    ∧ jobPart.queue 1 = []
    ∧ answered (.loadEntryGantry 3 1 1 5 0 100 0 50 0 7 1 2 64) jobPart ⟨kLoadEntry, 3, .ok, .none, false⟩
        ((jobPart.setParams 1 ⟨true, [0, 2], ⟨0, 100, 0, 50⟩, 0, 7, true, .batch, 64⟩).setMarks 1 { mode := .batch }) := by decide +kernel

theorem test_load_crane :
    Ready (.loadEntryCrane 3 1 1 50000 50 0) (withHead hall) ∧ (withHead hall).orderQueue 1 = [] ∧ (withHead hall).craneBusy 1 = false
    ∧ (∀ b : Bed, ((withHead hall).bed b).owner = none ∧ ((withHead hall).bed b).waiting = [])
    ∧ answered (.loadEntryCrane 3 1 1 50000 50 0) (withHead hall) ⟨kLoadEntry, 3, .ok, .none, false⟩
        (((withHead hall).setCrane 1 { installed := true, margin := 50000, timeout := 50, state := .lost }).setPresence 1 2 ⟨.present, 0⟩) := by
  decide +kernel

theorem test_unload_crane :
    Ready (.loadEntryCrane 3 1 0 0 2000 0) ((hall.setCrane 1 craneRec).setPresence 1 2 ⟨.clearing, 3⟩)
    ∧ answered (.loadEntryCrane 3 1 0 0 2000 0) ((hall.setCrane 1 craneRec).setPresence 1 2 ⟨.clearing, 3⟩) ⟨kLoadEntry, 3, .ok, .none, false⟩
        (hall.setCrane 1 { timeout := 2000 }) := by decide +kernel

theorem test_load_slot :
    Ready (.loadEntrySlot 3 7 1 3000000 600000 24000 1) hall ∧ (hall.slot 7).claim = none ∧ (hall.slot 7).stack = []
    ∧ HeadsQuiet hall (fun o => o.source == .slot 7 || o.destination == .slot 7)
    ∧ answered (.loadEntrySlot 3 7 1 3000000 600000 24000 1) hall ⟨kLoadEntry, 3, .ok, .none, false⟩
        (hall.setSlot 7 { loaded := true, position := some ⟨3000000, 600000⟩, maxima := some (24000, 1) }) := by decide +kernel

theorem test_load_pass :
    Ready (.loadEntryPass 3 5 0 1 2 0) hall ∧ passAction? 0 = some .forward ∧ passAction? 1 = some .block ∧ passAction? 2 = some .forwardWhenOff
    ∧ answered (.loadEntryPass 3 5 0 1 2 0) hall ⟨kLoadEntry, 3, .ok, .none, false⟩
        (hall.setPass 5 ⟨.forward, .block, .forwardWhenOff, .forward⟩) := by decide +kernel

theorem test_load_band :
    Ready (.loadEntryBand 3 0 1 30 50) hall ∧ (∀ j : Fin 8, j.val + 1 = 0 → (hall.band j).loaded = true ∧ (hall.band j).bound < 30)
    ∧ (∀ j : Fin 8, j.val = 1 → (hall.band j).loaded = true → 30 < (hall.band j).bound)
    ∧ answered (.loadEntryBand 3 0 1 30 50) hall ⟨kLoadEntry, 3, .ok, .none, false⟩
        { hall with hmp := { hall.hmp with bands := put hall.hmp.bands 0 ⟨true, 30, 50⟩ } } := by decide +kernel

theorem test_load_controller :
    Ready (.loadEntryController 3 0 20 3000000 600000 1023 8 2000) hall
    ∧ answered (.loadEntryController 3 0 20 3000000 600000 1023 8 2000) hall ⟨kLoadEntry, 3, .ok, .none, false⟩
        { hall with
          rsu := { hall.rsu with digPenalty := 1023, digReserve := 8, minSize := 2000 }, flp := { hall.flp with answerWindow := 20 } } := by
  decide +kernel

theorem test_read_entry :
    Ready (.readEntryBand 3 7 8 255) hall ∧ indexList 8 7 8 255 = some [7, 6, 5, 4, 3, 2, 1, 0]
    ∧ answered (.readEntryBand 3 7 2 1) hall ⟨kReadEntry, 3, .ok, .entries none [.band 7 {}], false⟩ hall
    ∧ answered (.readEntryRemnant 3 3 2 1) stock12 ⟨kReadEntry, 3, .ok,
        .entries (some (4, 12)) [.remnant 3 { number := 12, grade := 3, thickness := 200, width := 700, length := 900, location := .bed 3 }],
        false⟩ stock12 := by decide +kernel

theorem test_read_status :
    Ready (.readStatus 3) donePart
    ∧ (match (run (.readStatus 3) donePart).ofp.sending with
       | some (.reply r) => (match r.body with
          | .status x => decide (x.freePages = 1 ∧ x.freeJobs = 63 ∧ x.completionHead = some 0 ∧ x.freeRackPlaces = 0)
          | _ => false)
       | _ => false) = true := by decide +kernel

theorem test_clear_flags :
    Ready (.clearFlags 3) (failedPart.raiseUnderflow 1) ∧ ((failedPart.raiseUnderflow 1).marks 1).underflow = true
    ∧ answered (.clearFlags 3) (failedPart.raiseUnderflow 1) ⟨kClearFlags, 3, .ok, .none, false⟩ failedPart := by decide +kernel

theorem test_unknown_request :
    Ready (.unknownRequest 3 0x99 .badRequest) hall ∧ Ready (.unknownRequest 3 0x50 .badTable) hall
    ∧ answered (.unknownRequest 3 0x50 .badTable) hall ⟨0x50, 3, .badTable, .none, false⟩ hall := by decide +kernel

theorem test_controller_reset :
    Ready (.controllerReset 3) twoOrders ∧ twoOrders.flp.passOpen = false ∧ (twoOrders.crane 0).installed = true
    ∧ (run (.controllerReset 3) twoOrders).order 0 = none ∧ (run (.controllerReset 3) twoOrders).jst.mem = mem
    ∧ (run (.controllerReset 3) failedPart).flp.pending = [⟨1, .arcStop .warmReset⟩]
    ∧ (run (.controllerReset 3) twoOrders).presence 0 2 = ⟨.present, 0⟩ := by decide +kernel

/-- A stock at work: remnant 4 in transit from slot 5, remnant 9 RESERVED on the hook, crane 1 not installed with a presence left. -/
def workingStock : Machine.Part :=
  let p := (stock12.setCrane 0 craneRec).setPresence 1 3 ⟨.present, 0⟩
  { p.setRemnants
      [{ number := 4, grade := 3, thickness := 200, width := 500, length := 900, location := .slot 5 0, state := .inTransit },
       { number := 9, grade := 3, thickness := 200, width := 400, length := 800, location := .hook 0, state := .reserved,
         reservation := some 8, restack := [4] },
       { number := 12, grade := 3, thickness := 200, width := 700, length := 900, location := .bed 3, reservation := some 9 }] with
    flp := { p.flp with silence := true, turn := .gantry, nextCrane := 1, lastMark := 0 } }

theorem test_controller_reset_stock :
    Ready (.controllerReset 3) workingStock ∧ workingStock.flp.passOpen = false
    ∧ (let t := run (.controllerReset 3) workingStock
       t.rsu.remnants =
         [{ number := 4, grade := 3, thickness := 200, width := 500, length := 900, location := .unknown },
          { number := 9, grade := 3, thickness := 200, width := 400, length := 800, location := .unknown },
          { number := 12, grade := 3, thickness := 200, width := 700, length := 900, location := .bed 3, reservation := some 9 }]
       ∧ (t.slot 5).stack = [9] ∧ t.rsu.sequence = 12 ∧ t.presence 1 3 = ⟨.absent, 0⟩ ∧ t.crane 1 = workingStock.crane 1
       ∧ t.presence 0 3 = ⟨.present, 0⟩ ∧ t.flp.silence = true ∧ t.flp.turn = .crane ∧ t.flp.nextCrane = 0 ∧ t.flp.lastMark = 3) := by
  decide +kernel

theorem test_cold_reset :
    leaves (.coldReset true) hall heldPart ∧ heldPart.ofp.resetHeld = true ∧ leaves .resetInputRelease heldPart Part.cold
    ∧ hall.ofp.resetHeld = false ∧ leaves .resetInputRelease hall hall := by decide +kernel

theorem test_office_frame :
    Live hall ∧ hall.ofp.assembler = .hunting ∧ hall.ofp.waiting = none
    ∧ leaves (.officeFrameReceived (officeBytes ⟨0x10, 3, 0, [0, 2]⟩)) hall { hall with ofp := { hall.ofp with waiting := some (.jobOpen 3 2) } }
    ∧ Live takenPart ∧ takenPart.ofp.waiting = some (.readStatus 9)
    ∧ leaves (.officeFrameReceived (officeBytes ⟨0x10, 3, 0, [0, 2]⟩)) takenPart takenPart := by decide +kernel

/-- A frame in progress. -/
def collectingPart : Machine.Part := { hall with ofp := { hall.ofp with assembler := .collecting [6, 0x10] } }

theorem test_broken_frames :
    Live collectingPart ∧ collectingPart.ofp.assembler = .collecting [6, 0x10]
    ∧ leaves (.officeByteGap [] 0xA7) collectingPart { hall with ofp := { hall.ofp with assembler := .collecting [] } }
    ∧ leaves (.officeByteGap [] 1) collectingPart hall
    ∧ (3#8).toNat < 4 ∧ leaves (.officeLengthDrop [0xA7, 3, 1, 2]) hall hall ∧ 244 < (245#8).toNat
    ∧ leaves (.officeLengthDrop [0xA7, 245, 1, 2]) hall hall := by decide +kernel

/-- A frame being sent, a kept reply and a notice waiting. -/
def sendingPart : Machine.Part :=
  { ofp := { sending := some (.notice 1 (.queueEmpty 0)), replies := [⟨0x60, 7, .ok, .none, true⟩], notices := [(2, .queueEmpty 1)] },
    flp := { passHeld := some 7 } }
/-- The same without the reply. -/
def noticePart : Machine.Part := { ofp := { sending := some (.notice 1 (.queueEmpty 0)), notices := [(2, .queueEmpty 1)] } }
/-- The same without the notice as well. -/
def lastPart : Machine.Part := { ofp := { sending := some (.notice 1 (.queueEmpty 0)) } }

theorem test_transmit_done :
    leaves .officeTransmitDone sendingPart { ofp := { sending := some (.reply ⟨0x60, 7, .ok, .none, true⟩), notices := [(2, .queueEmpty 1)] } }
    ∧ leaves .officeTransmitDone noticePart { ofp := { sending := some (.notice 2 (.queueEmpty 1)) } }
    ∧ leaves .officeTransmitDone lastPart {} := by decide +kernel

/-- Another passthrough is held already. -/
def passHeldPart : Machine.Part := { hall with flp := { hall.flp with passHeld := some 5 } }

theorem test_passthrough :
    Ready (.passthrough 3 2 0x60 [0, 1, 2]) hall ∧ addressStation? 2 = some 1 ∧ passClass? 0 = some .diagnostic ∧ hall.flp.passHeld = none
    ∧ hall.passBlocked 1 .diagnostic = false
    ∧ leaves (.passthrough 3 2 0x60 [0, 1, 2]) hall
        { hall with flp := { hall.flp with passHeld := some 3, pending := [⟨1, .pass .diagnostic [1, 2]⟩] } }
    ∧ Ready (.passthrough 3 2 0x60 [0, 1, 2]) passHeldPart ∧ passHeldPart.flp.passHeld ≠ none
    ∧ answered (.passthrough 3 2 0x60 [0, 1, 2]) passHeldPart ⟨0x60, 3, .busy, .none, false⟩ passHeldPart
    ∧ passClass? 2 = some .motion ∧ hall.passBlocked 1 .motion = true
    ∧ answered (.passthrough 3 2 0x60 [2]) hall ⟨0x60, 3, .blocked, .none, false⟩ hall := by decide +kernel

/-- A passthrough in flight. -/
def passPart : Machine.Part :=
  { hall with flp := { hall.flp with passHeld := some 3, inFlight := some ⟨⟨1, .pass .diagnostic [1, 2]⟩, 4⟩ } }
/-- The same with the transmitter busy. -/
def passBusyPart : Machine.Part := { passPart with ofp := { passPart.ofp with sending := some (.notice 1 (.queueEmpty 0)) } }

theorem test_passthrough_answer :
    Live passPart ∧ passPart.ofp.sending = none ∧ passPart.flp.passHeld = some 3
    ∧ leaves (.passthroughAnswer 2 0x60 [9]) passPart
        { hall with ofp := { hall.ofp with sending := some (.reply ⟨0x60, 3, .ok, .answer 0x60 [9], true⟩) } }
    ∧ Live passBusyPart ∧ passBusyPart.ofp.sending ≠ none
    ∧ leaves (.passthroughAnswer 2 0x60 [9]) passBusyPart
        { passBusyPart with
          flp := { passBusyPart.flp with inFlight := none },
          ofp := { passBusyPart.ofp with replies := [⟨0x60, 3, .ok, .answer 0x60 [9], true⟩] } } := by decide +kernel

/-- Frames of three classes pending: a text of gantry 0, an order of crane 0, a pierce of gantry 2. -/
def pendingPart : Machine.Part :=
  { hall with flp := { hall.flp with pending := [⟨0, .markText 1 ⟨0, 0⟩ []⟩, ⟨4, .orderCancel 2⟩, ⟨2, .reference⟩] } }

theorem test_arbiter :
    pendingPart.flp.pick = some (⟨4, .orderCancel 2⟩,
      { hall.flp with pending := [⟨0, .markText 1 ⟨0, 0⟩ []⟩, ⟨2, .reference⟩] }) := by decide +kernel

theorem test_floor_grant :
    Live pendingPart ∧ pendingPart.flp.inFlight = none ∧ pendingPart.flp.silence = false
    ∧ leaves .floorGrant pendingPart
        { hall with flp := { hall.flp with
            pending := [⟨0, .markText 1 ⟨0, 0⟩ []⟩, ⟨2, .reference⟩], inFlight := some ⟨⟨4, .orderCancel 2⟩, 4⟩ } }
    ∧ Live passPart ∧ passPart.flp.inFlight ≠ none ∧ leaves .floorGrant passPart passPart := by decide +kernel

theorem test_rotation :
    Live freeCrane ∧ freeCrane.flp.inFlight = none ∧ freeCrane.flp.silence = false ∧ freeCrane.flp.pending = [] ∧ freeCrane.flp.turn = .crane
    ∧ (freeCrane.crane freeCrane.flp.nextCrane).installed = true
    ∧ leaves .floorGrant freeCrane
        { freeCrane with flp := { freeCrane.flp with inFlight := some ⟨⟨4, .poll false⟩, 4⟩, turn := .gantry, nextCrane := 1 } } := by
  decide +kernel

/-- An INIT in flight to gantry 1, whose station has missed once; a frame pending behind it. -/
def initPart : Machine.Part :=
  { (hall.setEngine 1 { state := .init }).setStation 1 ⟨1, false, some .silent⟩ with
    flp := { ((hall.setEngine 1 { state := .init }).setStation 1 ⟨1, false, some .silent⟩).flp with
      inFlight := some ⟨⟨1, params.initFrame⟩, 4⟩, pending := [⟨2, .reference⟩] } }

theorem test_miss :
    Live initPart ∧ initPart.flp.inFlight = some ⟨⟨1, params.initFrame⟩, 4⟩ ∧ params.initFrame.cls = 4 ∧ (initPart.station 1).lost = false
    ∧ (initPart.station 1).misses < 2 ∧ parseFloorFrame [0x5A, 1] = none
    ∧ leaves (.badAnswer [0x5A, 1]) initPart
        { initPart.setStation 1 ⟨2, false, some .badAnswer⟩ with
          flp := { (initPart.setStation 1 ⟨2, false, some .badAnswer⟩).flp with
            inFlight := none, silence := true, pending := [⟨1, params.initFrame⟩, ⟨2, .reference⟩] } }
    ∧ run (.answerWindowExpiry true) initPart = run (.badAnswer [0x5A, 1]) initPart
    ∧ ((run (.answerWindowExpiry false) initPart).station 1).cause = some .silent := by decide +kernel

theorem test_bytes_behind_the_answer :
    parseFloorFrame (floorBytes 2 0x81 [] ++ [0x55, 0x5A]) = some ⟨2, 0x81, []⟩ ∧ parseFloorFrame (0x11 :: floorBytes 2 0x81 []) = none
    ∧ run (.badAnswer (floorBytes 2 0x81 [] ++ [0x55])) initPart = run (.answerAck 2) initPart := by decide +kernel

theorem test_silence_end :
    Live hall ∧ leaves .missSilenceEnd { hall with flp := { hall.flp with silence := true } } hall := by decide +kernel

/-- A poll of a LOST crane in flight, its station missed twice. -/
def lostPart : Machine.Part :=
  { (hall.setCrane 0 { craneRec with state := .lost }).setStation 4 ⟨2, false, some .silent⟩ with
    flp := { ((hall.setCrane 0 craneRec).setStation 4 ⟨2, false, some .silent⟩).flp with
      inFlight := some ⟨⟨4, .poll false⟩, 4⟩, pending := [⟨4, .orderCancel 2⟩, ⟨4, .pass .io []⟩] } }

theorem test_third_miss :
    Live lostPart ∧ lostPart.flp.inFlight = some ⟨⟨craneStation 0, .poll false⟩, 4⟩ ∧ (lostPart.crane 0).installed = true
    ∧ (lostPart.crane 0).state ≠ .tracking ∧ (lostPart.station 4).lost = false ∧ (lostPart.station 4).misses = 2
    ∧ leaves (.answerWindowExpiry false) lostPart
        { lostPart.setStation 4 ⟨3, true, some .silent⟩ with
          flp := { (lostPart.setStation 4 ⟨3, true, some .silent⟩).flp with
            inFlight := none, silence := true, pending := [⟨4, .pass .io []⟩] },
          ofp := lostPart.ofp.given (.stationLost 8 (some .silent) 0x01) } := by decide +kernel

/-- A poll of gantry 1 in flight, missed twice; a text of it is pending and holds slot 2, another slot holds a text sent. -/
def lostGantry : Machine.Part :=
  let p := ((hall.setStation 1 ⟨2, false, some .silent⟩).setMarks 1
    { slots := put (put (Vector.replicate 4 none) 2 (some ⟨some 0, 1, 1⟩)) 3 (some ⟨none, 1, 1⟩) }).setEngine 1
      { state := .idle, backlog := 1, idleReference := true }
  { p with flp := { p.flp with inFlight := some ⟨⟨1, .poll false⟩, 4⟩, pending := [⟨1, .markText 2 ⟨0, 0⟩ []⟩, ⟨2, .reference⟩, ⟨1, .pass .io []⟩] } }

theorem test_third_miss_of_a_gantry :
    Live lostGantry ∧ lostGantry.flp.inFlight = some ⟨⟨gantryStation 1, .poll false⟩, 4⟩ ∧ (lostGantry.engine 1).state = .idle
    ∧ (lostGantry.engine 1).job = none ∧ (lostGantry.engine 1).bedRequest = .none ∧ (lostGantry.station (gantryStation 1)).lost = false
    ∧ (lostGantry.station (gantryStation 1)).misses = 2
    ∧ leaves (.answerWindowExpiry true) lostGantry
        (let q := ((lostGantry.setStation 1 ⟨3, true, some .badAnswer⟩).setEngine 1 { state := .fault, backlog := 1 }).setMarks 1
           { slots := put (Vector.replicate 4 none) 3 (some ⟨none, 1, 1⟩) }
         { q with
           flp := { q.flp with inFlight := none, silence := true, pending := [⟨2, .reference⟩, ⟨1, .pass .io []⟩] },
           ofp := (lostGantry.ofp.given (.gantryState 1 .fault ⟨{}, false⟩ none 0 .link none none)).notify
             (.stationLost 2 (some .badAnswer) 0x01) }) := by decide +kernel

/-- A poll of crane 0 in flight, the crane clearing bed 2 and present over bed 4. -/
def pollPart : Machine.Part :=
  let p := ((((hall.setCrane 0 { craneRec with age := 300, duePoll := true }).setBed 4
    { bedRec with rect := some ⟨100000, 200000, 0, 9000⟩, plate := none }).setPresence 0 2 ⟨.clearing, 15⟩).setPresence 0 4 ⟨.present, 0⟩)
  { p with flp := { p.flp with inFlight := some ⟨⟨4, .poll true⟩, 4⟩ } }

theorem test_position :
    Live pollPart ∧ pollPart.flp.inFlight = some ⟨⟨craneStation 0, .poll true⟩, 4⟩ ∧ (pollPart.crane 0).state = .tracking
    ∧ (pollPart.station 4).lost = false ∧ (∀ b : Bed, (pollPart.bed b).owner = none ∧ (pollPart.bed b).waiting = [])
    ∧ pollPart.orderQueue 0 = []
    ∧ leaves (.cranePollAnswer 8 5101 (-4) true false none) pollPart
        { ((pollPart.setCrane 0 { craneRec with last := some ⟨5101, 0, true, false⟩ }).setPresence 0 2 ⟨.absent, 0⟩).setPresence 0 4
            ⟨.clearing, 1⟩ with
          flp := hall.flp } := by decide +kernel

theorem test_position_on_the_edge :
    ((run (.cranePollAnswer 8 5100 900 true false none) pollPart).presence 0 2) = ⟨.present, 0⟩ := by decide +kernel

/-- The same crane LOST. -/
def foundPart : Machine.Part := pollPart.setCrane 0 { craneRec with state := .lost, age := 300 }

theorem test_found :
    Live foundPart ∧ (foundPart.crane 0).state = .lost ∧ (foundPart.station 4).lost = false ∧ foundPart.orderQueue 0 = []
    ∧ leaves (.cranePollAnswer 8 5101 (-4) true false none) foundPart
        { (((foundPart.setCrane 0 { craneRec with last := some ⟨5101, 0, true, false⟩ }).setPresence 0 2 ⟨.clearing, 1⟩).setPresence 0 4
            ⟨.clearing, 1⟩) with
          flp := hall.flp, ofp := foundPart.ofp.given (.craneFound 0 ⟨5101, 0, true, false⟩) }
    ∧ (run (.cranePollAnswer 8 100 100 true false none) foundPart).presence 0 2 = ⟨.clearing, 1⟩
    ∧ (run (.cranePollAnswer 8 900 900 true false none) foundPart).presence 0 2 = ⟨.present, 0⟩ := by decide +kernel

/-- Job 0 on gantry 1 on bed 2 with its registration, in this state, a poll in flight. -/
def burning (e : Engine) : Machine.Part :=
  let p := (((registeredBed.setBed 2 { bedRec with owner := some 1 }).setJob 0 { state := .active, gantry := some 1, pages := [0] }).setEngine 1
    { e with job := some 0, bedRequest := .owner, backlog := 1 })
  { p with
    jst := { p.jst with mem := Memory.write (Memory.write mem 5 (.pierce 300 100 1)) 6 .endOfJob },
    flp := { p.flp with inFlight := some ⟨⟨1, .poll false⟩, 4⟩ } }

/-- The burn of record 4 stopped at a known point, and crane 0 leaving bed 2, its poll in flight. -/
def clearedPart : Machine.Part :=
  let p := ((burning { state := .stopped, stopPoint := some (4, 128), credit := 8, nextRecord := some 5 }).setCrane 0 craneRec).setPresence
    0 2 ⟨.clearing, 15⟩
  { p with flp := { p.flp with inFlight := some ⟨⟨4, .poll false⟩, 4⟩ } }

theorem test_clearance_resumes :
    Live clearedPart ∧ (clearedPart.crane 0).state = .tracking ∧ (clearedPart.station (craneStation 0)).lost = false
    ∧ clearedPart.orderQueue 0 = [] ∧ (∀ a : Bed, (clearedPart.bed a).waiting = [] ∧ (a ≠ 2 → (clearedPart.bed a).owner = none))
    ∧ (clearedPart.presence (otherCrane 0) 2).state = .absent ∧ clearedPart.record 0 4 = .line 200 100 2 1000
    ∧ clearedPart.transform 1 200 100 = some ⟨200, 100⟩ ∧ clearedPart.record 0 5 = .pierce 300 100 1
    ∧ (clearedPart.engine 1).pendingOutcome = none ∧ clampTo clearedPart.hmp.hallLength 9 < 1000 - (clearedPart.crane 0).margin
    ∧ leaves (.cranePollAnswer 8 9 9 true false none) clearedPart
        { ((clearedPart.setCrane 0 { craneRec with last := some ⟨9, 9, true, false⟩ }).setPresence 0 2 ⟨.absent, 0⟩).setEngine 1
            { clearedPart.engine 1 with state := .cut, stopPoint := none, credit := 7, outstanding := [4], nextRecord := some 5 } with
          flp := { clearedPart.flp with
            inFlight := none, pending := [⟨1, .resume 4 (.line ⟨200, 100⟩ 2 1000) 128⟩] } } := by decide +kernel

/-- A pierce of record 3 under way; the engine held back by nothing. -/
def piercing : Machine.Part := burning { state := .pierce, chainPierce := some 3, nextRecord := some 3, credit := 8, retryCount := 1 }

theorem test_pierce_ok :
    Live piercing ∧ piercing.record 0 4 = .line 200 100 2 1000 ∧ piercing.record 0 5 = .pierce 300 100 1
    ∧ piercing.transform 1 200 100 = some ⟨200, 100⟩ ∧ (piercing.engine 1).outstanding = [] ∧ (piercing.engine 1).job = some 0
    ∧ leaves (.gantryPollAnswer 2 [.pierceOk]) piercing
        (((piercing.answerTaken 1).setEngine 1
          { piercing.engine 1 with
            state := .cut, retryCount := 0, counters := { pierces := 1 }, credit := 7, outstanding := [4], nextRecord := some 5 }).request 1
          (.segment 4 (.line ⟨200, 100⟩ 2 1000))) := by decide +kernel

/-- The same with another pierce allowed. -/
def retrying : Machine.Part := piercing.setParams 1 { params with retryLimit := 2 }

theorem test_pierce_failed :
    Live retrying ∧ (retrying.engine 1).backlog < 3 ∧ (retrying.engine 1).retryCount < (retrying.params 1).retryLimit
    ∧ retrying.record 0 3 = .pierce 100 100 1 ∧ retrying.transform 1 100 100 = some ⟨100, 100⟩
    ∧ leaves (.gantryPollAnswer 2 [.pierceFailed]) retrying
        (((retrying.answerTaken 1).setEngine 1
          { retrying.engine 1 with retryCount := 2, counters := { pierceRetries := 1 } }).request 1 (.pierce 3 ⟨100, 100⟩ 1)) := by
  decide +kernel

/-- A burn stopped with its stop point not known, crane 0 over bed 2. -/
def haltedPart : Machine.Part :=
  (burning { state := .stopped, chainPierce := some 3, chainDone := true, outstanding := [4, 4], credit := 6, nextRecord := some 5 }).setPresence
    0 2 ⟨.present, 0⟩

theorem test_stopped_at :
    Live haltedPart ∧ (haltedPart.engine 1).outstanding.head? = some 4 ∧ haltedPart.jobBed 0 = some 2 ∧ haltedPart.bedClear 2 = false
    ∧ (haltedPart.engine 1).stopPoint = none ∧ (haltedPart.engine 1).pendingOutcome = none
    ∧ leaves (.gantryPollAnswer 2 [.stoppedAt 4 77]) haltedPart
        ((haltedPart.answerTaken 1).setEngine 1
          { haltedPart.engine 1 with stopPoint := some (4, 77), outstanding := [], credit := 8, nextRecord := some 5 })
    ∧ (let q := haltedPart.setEngine 1 { haltedPart.engine 1 with chainDone := false }
       leaves (.gantryPollAnswer 2 [.stoppedAt 3 0]) q
        ((q.answerTaken 1).setEngine 1
          { q.engine 1 with stopPoint := some (3, 0), outstanding := [], credit := 8, nextRecord := some 4 })) := by decide +kernel

/-- An IDLE gantry with a REFERENCE pending and one pending for another. -/
def idlePolled : Machine.Part :=
  { hall with flp := { hall.flp with
      inFlight := some ⟨⟨1, .poll false⟩, 4⟩, pending := [⟨1, .register 2 none⟩, ⟨2, .reference⟩] } }

theorem test_underflow_and_fault :
    Live idlePolled ∧ (idlePolled.engine 1).state = .idle ∧ (idlePolled.engine 1).job = none ∧ (idlePolled.engine 1).bedRequest = .none
    ∧ (∀ x : Fin 4, x.val = 3 → look (idlePolled.marks 1).slots x = none)
    ∧ leaves (.gantryPollAnswer 2 [.markDone 3 true]) idlePolled ((idlePolled.answerTaken 1).setMarks 1 { underflow := true })
    ∧ leaves (.gantryPollAnswer 2 [.fault 9]) idlePolled
        { (idlePolled.answerTaken 1).setEngine 1 { state := .fault, backlog := 0 } with
          flp := { idlePolled.flp with inFlight := none, pending := [⟨2, .reference⟩] },
          ofp := idlePolled.ofp.given (.gantryState 1 .fault ⟨{}, false⟩ none 0 .machine (some 9) none) } := by decide +kernel

/-- Gantry 1 IDLE, its idle reference sent, a backlog of 2. -/
def referencing : Machine.Part :=
  { hall.setEngine 1 { state := .idle, backlog := 2, idleReference := true } with
    flp := { hall.flp with inFlight := some ⟨⟨1, .poll false⟩, 4⟩ } }

theorem test_reference_done :
    Live referencing ∧ referencing.referencePending 1 = false ∧ 2 ≤ (referencing.engine 1).backlog ∧ referencing.queue 1 = []
    ∧ leaves (.gantryPollAnswer 2 [.referenceDone]) referencing
        (((referencing.answerTaken 1).setEngine 1 { state := .idle, backlog := 1, idleReference := true }).request 1 .reference) := by
  decide +kernel

/-- Gantry 1 in REGISTER with every slot full. -/
def fullSlots : Machine.Part := registering.setMarks 1 { slots := Vector.replicate 4 (some ⟨none, 1, 1⟩) }

theorem test_registered :
    Live fullSlots ∧ fullSlots.jobBed 0 = some 2 ∧ (fullSlots.bed 2).plate = some ⟨.mill, 7⟩
    ∧ (∀ x : Fin 4, look (fullSlots.marks 1).slots x ≠ none) ∧ (600000 : Int) ≤ fullSlots.hmp.hallWidth
    ∧ leaves (.gantryPollAnswer 2 [.registered 0 600000 (-36600)]) fullSlots
        (((fullSlots.answerTaken 1).setRegistration 1 (some ⟨2, ⟨.mill, 7⟩, 0, 600000, -36600⟩)).setEngine 1
          { fullSlots.engine 1 with state := .mark }) := by decide +kernel

/-- Gantry 1 STOPPED with three segments outstanding, a poll in flight. -/
def stoppedPart : Machine.Part :=
  let p := (hall.setJob 0 { state := .active, gantry := some 1, pages := [0] }).setEngine 1
    { state := .stopped, job := some 0, outstanding := [4, 5, 4], credit := 5, accumulator := 4500, backlog := 1 }
  { p with flp := { p.flp with inFlight := some ⟨⟨1, .poll false⟩, 4⟩ } }

theorem test_segments_done :
    Live stoppedPart ∧ stoppedPart.flp.inFlight = some ⟨⟨gantryStation 1, .poll false⟩, 4⟩ ∧ (stoppedPart.station 1).lost = false
    ∧ (stoppedPart.engine 1).state = .stopped ∧ (stoppedPart.engine 1).job = some 0 ∧ 2 ≤ (stoppedPart.engine 1).outstanding.length
    ∧ leaves (.gantryPollAnswer 2 [.segmentsDone 2]) stoppedPart
        { stoppedPart.setEngine 1 { stoppedPart.engine 1 with
            outstanding := [4], credit := 7, accumulator := 500, backlog := 2, counters := { burnedLength := 1000 } } with
          flp := hall.flp } := by decide +kernel

/-- The same with a SEGMENT of record 5 and a RESUME of record 4 still pending, and a frame of a record not yet done. -/
def stoppedKept : Machine.Part :=
  { stoppedPart with flp := { stoppedPart.flp with
      pending := [⟨1, .resume 4 (.rapid ⟨0, 0⟩) 9⟩, ⟨1, .segment 5 (.rapid ⟨0, 0⟩)⟩, ⟨1, .segment 6 (.rapid ⟨0, 0⟩)⟩, ⟨2, .reference⟩] } }

theorem test_segments_done_are_not_sent_again :
    Live stoppedKept
    ∧ (run (.gantryPollAnswer 2 [.segmentsDone 2]) stoppedKept).flp.pending = [⟨1, .segment 6 (.rapid ⟨0, 0⟩)⟩, ⟨2, .reference⟩]
    ∧ (run (.gantryPollAnswer 2 [.segmentsDone 2]) stoppedKept).engine 1 = (run (.gantryPollAnswer 2 [.segmentsDone 2]) stoppedPart).engine 1 := by
  decide +kernel

/-- An ORDER in flight to crane 0. -/
def sentPart : Machine.Part :=
  let p := (twoOrders.setOrder 0 (some { hookOrder with state := .sent, held := {} })).setStation 4 ⟨2, false, some .silent⟩
  { p with flp := { p.flp with inFlight := some ⟨⟨4, .order 0 ⟨.hook, none⟩ ⟨.outfeed, none⟩ (.plate ⟨.mill, 3⟩)⟩, 4⟩ } }

theorem test_order_ack :
    Live sentPart ∧ (sentPart.station 4).lost = false ∧ (sentPart.order 0).map Order.state = some .sent
    ∧ leaves (.answerAck 8) sentPart
        (({ sentPart with flp := { sentPart.flp with inFlight := none } }.setStation 4 ⟨0, false, some .silent⟩).setOrder 0
          (some { hookOrder with state := .sent, held := {}, answered := true })) := by decide +kernel

theorem test_init_ack :
    Live initPart ∧ (initPart.engine 1).state = .init ∧ (initPart.engine 1).bedRequest = .none ∧ (initPart.engine 1).idleReference = false
    ∧ 0 < (initPart.engine 1).backlog ∧ initPart.queue 1 = [] ∧ initPart.referencePending 1 = false
    ∧ leaves (.answerAck 2) initPart
        ((({ initPart with flp := { initPart.flp with inFlight := none } }.setStation 1 ⟨0, false, some .silent⟩).setEngine 1
          { state := .idle, idleReference := true }).request 1 .reference) := by decide +kernel

theorem test_init_refused :
    Live initPart ∧ leaves (.answerRefuse 2 7) initPart
        { ({ initPart with flp := { initPart.flp with inFlight := none } }.setStation 1 ⟨0, false, some .silent⟩).setEngine 1 { state := .fault } with
          ofp := initPart.ofp.given (.gantryState 1 .fault ⟨{}, false⟩ none 0 .init (some 7) none) } := by decide +kernel

/-- Crane 0 TRACKING with an old report, nothing on its queue. -/
def agedPart : Machine.Part := hall.setCrane 0 { craneRec with age := 500 }

theorem test_tick :
    Live agedPart ∧ (agedPart.crane 0).state ≠ .uninstalled ∧ (agedPart.crane 1).state = .uninstalled
    ∧ leaves .reportAgeTick agedPart (hall.setCrane 0 { craneRec with age := 501 })
    ∧ leaves .reportAgeTick (hall.setCrane 0 { craneRec with age := 65535 }) (hall.setCrane 0 { craneRec with age := 65535 }) := by
  decide +kernel

theorem test_due_poll :
    Live agedPart ∧ (agedPart.crane 0).state = .tracking ∧ (agedPart.crane 0).duePoll = false ∧ (agedPart.crane 0).timeout < 2 * (agedPart.crane 0).age
    ∧ leaves (.duePollRaise 0) agedPart
        { agedPart.setCrane 0 { craneRec with age := 500, duePoll := true } with
          flp := { agedPart.flp with pending := [⟨4, .poll true⟩] } } := by decide +kernel

theorem test_due_poll_raised_already :
    Live pollPart ∧ (pollPart.crane 0).duePoll = true ∧ leaves (.duePollRaise 0) pollPart pollPart := by decide +kernel

/-- Bed 2 burned by gantry 1, crane 0 away with an old report. -/
def arrivalPart : Machine.Part :=
  let p := (burning { state := .cut, outstanding := [4], credit := 7, nextRecord := some 5 }).setCrane 0 { craneRec with age := 500 }
  { p with flp := { p.flp with inFlight := none, pending := [⟨1, .segment 4 (.line ⟨200, 100⟩ 2 1000)⟩, ⟨4, .poll true⟩] } }
/-- The same with the segment sent. -/
def arrivalSent : Machine.Part := { arrivalPart with flp := { arrivalPart.flp with pending := [⟨4, .poll true⟩] } }

theorem test_arrival :
    Live arrivalSent ∧ (arrivalSent.crane 0).state = .tracking ∧ (arrivalSent.crane 0).timeout ≤ (arrivalSent.crane 0).age
    ∧ arrivalSent.orderQueue 0 = [] ∧ (∀ a : Bed, (arrivalSent.bed a).waiting = [] ∧ (a ≠ 2 → (arrivalSent.bed a).owner = none))
    ∧ (arrivalSent.bed 2).owner = some 1 ∧ (arrivalSent.bed 2).loaded = true ∧ (arrivalSent.presence 0 2).state = .absent
    ∧ (arrivalSent.engine 1).outstanding ≠ []
    ∧ (∀ r ∈ arrivalSent.flp.pending, r.station = gantryStation 1 → r.frame.cls ≠ 1 ∧ r.frame.kind ≠ 0x06)
    ∧ leaves (.positionTimeout 0) arrivalSent
        { (((arrivalSent.setCrane 0 { craneRec with age := 500, state := .lost }).setPresence 0 2 ⟨.present, 0⟩).setEngine 1
            { arrivalSent.engine 1 with state := .stopped }) with
          flp := { arrivalSent.flp with pending := [⟨1, .arcStop .engine⟩] },
          ofp := (arrivalSent.ofp.given (.gantryState 1 .stopped ⟨{}, false⟩ (some 0) 0 .arrival none none)).notify
            (.craneLost 0 .timeout 500) } := by decide +kernel

/-- An arrival before any segment is sent: record 4 is set back to, and its credit returned once; a frame of a record that is outstanding
no more returns none. -/
theorem test_arrival_before_the_segment :
    ((run (.positionTimeout 0) arrivalPart).engine 1).stopPoint = some (4, 0)
    ∧ ((run (.positionTimeout 0) arrivalPart).engine 1).nextRecord = some 4 ∧ ((run (.positionTimeout 0) arrivalPart).engine 1).credit = 8
    ∧ (run (.positionTimeout 0) arrivalPart).flp.pending = [⟨1, .arcStop .engine⟩]
    ∧ (let q := arrivalPart.setEngine 1 { arrivalPart.engine 1 with outstanding := [], credit := 8 }
       ((run (.positionTimeout 0) q).engine 1).stopPoint = some (5, 0) ∧ ((run (.positionTimeout 0) q).engine 1).credit = 8
       ∧ (run (.positionTimeout 0) q).flp.pending = [⟨1, .arcStop .engine⟩]) := by decide +kernel

theorem test_position_timeout :
    Live agedPart ∧ (agedPart.crane 0).timeout ≤ (agedPart.crane 0).age ∧ agedPart.orderQueue 0 = []
    ∧ (∀ b : Bed, (agedPart.bed b).owner = none ∧ (agedPart.bed b).waiting = [])
    ∧ leaves (.positionTimeout 0) agedPart
        { (agedPart.setCrane 0 { craneRec with age := 500, state := .lost }).setPresence 0 2 ⟨.present, 0⟩ with
          ofp := agedPart.ofp.given (.craneLost 0 .timeout 500) }
    ∧ (freeCrane.crane 0).age < (freeCrane.crane 0).timeout ∧ leaves (.positionTimeout 0) freeCrane freeCrane := by decide +kernel

/-- Two bands loaded: up to 100 the margin 3, up to 200 the margin 5. -/
def bandPart : Machine.Part :=
  { hall with hmp := { hall.hmp with bands := put (put hall.hmp.bands 0 ⟨true, 100, 3⟩) 1 ⟨true, 200, 5⟩ } }

theorem test_margin :
    (bandPart.band 1).loaded = true ∧ 101 ≤ (bandPart.band 1).bound ∧ (∀ j : Fin 8, j < 1 → (bandPart.band j).loaded = true → (bandPart.band j).bound < 101)
    ∧ bandPart.marginFor 100 = 3 ∧ bandPart.marginFor 101 = 5 ∧ bandPart.marginFor 200 = 5
    ∧ (∀ j : Fin 8, (bandPart.band j).loaded = true → (bandPart.band j).bound < 201) ∧ (∀ j : Fin 8, 1 < j → (bandPart.band j).loaded = false)
    ∧ bandPart.marginFor 201 = 5 := by decide +kernel

theorem test_lengths_add_up :
    0 < 5000 ∧ 4999 < 5000 ∧ 3 ≤ 3 ∧ addLength 5000 4999 2 1 = (0, 3) ∧ addLength 5000 4999 3 5001 = (0, 3)
    ∧ addLength 5000 (addLength 5000 4999 1 1).1 (addLength 5000 4999 1 1).2 4999 = addLength 5000 4999 1 5000
    ∧ addLength 0 7 1 5000 = (7, 1) := by decide

theorem test_transform :
    (250000 ≤ 250000 ∧ 60000 ≤ 60000 ∧ (-36600 : Int) ≤ 36600)
    ∧ hallPoint ⟨2, ⟨.mill, 7⟩, 1000, 2000, 36600⟩ 250000 60000 = ⟨1000 + 247754, 2000 + 68690⟩
    ∧ hallPoint ⟨2, ⟨.mill, 7⟩, 0, 0, -36600⟩ 250000 60000 = ⟨251942, 51237⟩
    ∧ hallPoint ⟨2, ⟨.mill, 7⟩, 0, 0, 36600⟩ 0 60000 = ⟨-2094, 59963⟩ := by decide

theorem test_record_reads_back :
    parseRecord (encodeRecord (.header ⟨.remnant, 4294967295⟩ 7 15 1500 .continuation (some (24000, 1)) 65535))
      = some (.header ⟨.remnant, 4294967295⟩ 7 15 1500 .continuation (some (24000, 1)) 65535)
    ∧ parseRecord (encodeRecord (.arc 250000 60000 0 60000 true 7 4000000)) = some (.arc 250000 60000 0 60000 true 7 4000000) := by
  decide +kernel

theorem test_answer_reads_back :
    fitsCoord (-2147483648) = true ∧ fitsCoord 2147483647 = true
    ∧ parseAnswer 0x83 (positionBytes (-2147483648) 2147483647 true false (some (.aborted, 31)))
        = .position (-2147483648) 2147483647 true false (some (.aborted, 31))
    ∧ parseAnswer 0x84 (eventBytes [.registered (-1) 0 36600, .markDone 3 false, .stoppedAt 65535 255, .fault 255])
        = .events [.registered (-1) 0 36600, .markDone 3 false, .stoppedAt 65535 255, .fault 255]
    ∧ parseFloorFrame (floorBytes 255 255 [1, 2, 3]) = some ⟨255, 255, [1, 2, 3]⟩ := by decide +kernel

/-! ## The invariants, met by a state with something in it -/

theorem test_memory_ok : Memory.wf mem = true ∧ Memory.wf Part.cold.jst.mem = true := by decide +kernel

theorem test_bed_records_ok : HolderOk registeredBed ∧ RegistrationOk registeredBed ∧ WaitingOk waitingHall := by
  refine ⟨by unfold HolderOk; decide +kernel, ?_, by unfold WaitingOk; decide +kernel⟩
  intro g r h
  have : registeredBed.registration g = none ∨ registeredBed.registration g = some ⟨2, ⟨.mill, 7⟩, 0, 0, 0⟩ :=
    (by decide +kernel : ∀ g : Gantry, registeredBed.registration g = none
      ∨ registeredBed.registration g = some ⟨2, ⟨.mill, 7⟩, 0, 0, 0⟩) g
  rcases this with h' | h' <;> rw [h'] at h <;> cases h
  decide +kernel

theorem test_office_ok : OfficeOk sendingPart ∧ RestOk sendingPart := by unfold OfficeOk RestOk; decide +kernel

theorem test_remnants_ok : RemnantsOk stock12 ∧ QueuesOk twoOrders := by
  unfold RemnantsOk QueuesOk
  refine ⟨by decide +kernel, fun c => ⟨?_, ?_, fun n h => ?_⟩⟩
  · exact (by decide +kernel : ∀ c : Crane, (twoOrders.orderQueue c).length ≤ orderQueueCapacity) c
  · exact (by decide +kernel : ∀ c : Crane, (twoOrders.orderQueue c).Nodup) c
  · have : ((twoOrders.order n).any fun o => o.crane == c) = true :=
      (by decide +kernel : ∀ c : Crane, ∀ n ∈ twoOrders.orderQueue c, ((twoOrders.order n).any fun o => o.crane == c) = true) c n h
    cases ho : twoOrders.order n with
    | none => rw [ho] at this; cases this
    | some o => rw [ho] at this; exact ⟨o, rfl, by simpa using this⟩

/-- Page 0 held by job 0, page 5 by job 1, the others in the pool. -/
def pagedPart : Machine.Part := run (.jobOpen 4 1) (run (.jobOpen 3 2) Part.cold)

theorem test_pages_ok : (pagedPart.job 0).pages = [0, 1] ∧ (pagedPart.job 1).pages = [2] ∧ PagesOk Part.cold := by
  refine ⟨by decide +kernel, by decide +kernel, ?_, fun j _ => (by decide +kernel : ∀ j : JobNo, (Part.cold.job j).pages = []) j⟩
  have : Part.cold.jst.pool ++ allJobs.flatMap (fun j => (Part.cold.job j).pages) = List.range 1024 := by decide +kernel
  rw [this]

theorem test_backlog_ok : BacklogOk stoppedPart ∧ PassOk passPart ∧ PassOk sendingPart := by
  unfold BacklogOk PassOk; decide +kernel

end Sys2Proof.Tests
end

section
/-! PROOFS. Crane presence and clearance (chapter 2): the signals of a presence change, a crane's report, its loss, its entry, and
what an arrival and a clearance do to the engine that burns on the bed. -/

namespace Sys2Proof.Machine.CranePresence

/-! ## Hand-offs in a row -/

theorem emits_emits (p : Part) (ts us : List Task) : (p.emits ts).emits us = p.emits (ts ++ us) := by simp [Part.emits]

theorem emit_emits (p : Part) (t : Task) (us : List Task) : (p.emit t).emits us = p.emits (t :: us) := by simp [Part.emit, Part.emits]

/-- A hand-off that changes nothing, run in a part without others. -/
theorem micro_of_idle {p : Part} {t : Task} (ha : p.agenda = []) (h : p.Idle t) : p.micro t = p := by
  rwa [Part.Idle, Part.agenda_eta ha] at h

/-- Of several hand-offs, the leading ones that change nothing are run without effect. -/
theorem settle_emits_idle (n : Nat) {p : Part} {ts : List Task} (rest : List Task) (ha : p.agenda = []) (h : ∀ t ∈ ts, p.Idle t) :
    settle (n + ts.length) (p.emits (ts ++ rest)) = settle n (p.emits rest) := by
  induction ts with
  | nil => rfl
  | cons t ts ih =>
      rw [List.length_cons, ← Nat.add_assoc, List.cons_append, settle_emits _ _ _ ha, micro_of_idle ha (h t (by simp))]
      exact ih fun u hu => h u (by simp [hu])

/-- Hand-offs that change nothing, and no others, are run without effect. -/
theorem settle_emits_idle_all (n : Nat) {p : Part} {ts : List Task} (ha : p.agenda = []) (h : ∀ t ∈ ts, p.Idle t) :
    settle (n + ts.length) (p.emits ts) = p := by
  have := settle_emits_idle n [] ha h
  rwa [List.append_nil, Part.emits_nil, settle_nil _ ha] at this

/-- A crane without an order has nothing to do for a report of its state (R32). -/
theorem idle_craneReport {p : Part} {c : Crane} (h : p.orderQueue c = []) : p.Idle (.craneReport c) := by
  have h' : ({ p with agenda := [] } : Part).orderQueue c = [] := h
  simp [Part.Idle, Part.micro, Part.craneReport, h']

/-! ## The eight presence records of a crane -/

/-- Each pair of a crane and a bed has a presence record of its own (R20). -/
theorem presenceIx_inj {c d : Crane} {a b : Bed} : presenceIx c a = presenceIx d b ↔ c = d ∧ a = b := by
  simp only [presenceIx, Fin.ext_iff]; omega

theorem otherCrane_ne (c : Crane) : otherCrane c ≠ c := by revert c; decide

theorem mem_allBeds (b : Bed) : b ∈ allBeds := by revert b; decide

theorem foldl_setPresence_presence (p : Part) (c : Crane) (f : Bed → Presence) (bs : List Bed) (d : Crane) (b : Bed) :
    (bs.foldl (fun p b => p.setPresence c b (f b)) p).presence d b = if c = d ∧ b ∈ bs then f b else p.presence d b := by
  induction bs generalizing p with
  | nil => simp
  | cons a bs ih =>
      rw [List.foldl_cons, ih, Part.setPresence_presence]
      by_cases hab : a = b
      · subst hab; by_cases hcd : c = d <;> simp [presenceIx_inj, hcd]
      · simp [presenceIx_inj, hab, Ne.symm hab]

@[simp] theorem putPresences_presence (p : Part) (c d : Crane) (f : Bed → Presence) (b : Bed) :
    (p.putPresences c f).presence d b = if c = d then f b else p.presence d b := by
  simp [Part.putPresences, foldl_setPresence_presence, mem_allBeds]

@[simp] theorem putPresences_bed (p : Part) (c : Crane) (f : Bed → Presence) (b : Bed) : (p.putPresences c f).bed b = p.bed b := rfl
@[simp] theorem putPresences_crane (p : Part) (c d : Crane) (f : Bed → Presence) : (p.putPresences c f).crane d = p.crane d := rfl
@[simp] theorem putPresences_engine (p : Part) (c : Crane) (f : Bed → Presence) (g : Gantry) : (p.putPresences c f).engine g = p.engine g := rfl
@[simp] theorem putPresences_orderQueue (p : Part) (c d : Crane) (f : Bed → Presence) : (p.putPresences c f).orderQueue d = p.orderQueue d := rfl
@[simp] theorem putPresences_station (p : Part) (c : Crane) (f : Bed → Presence) (x : Station) : (p.putPresences c f).station x = p.station x := rfl
@[simp] theorem putPresences_jst (p : Part) (c : Crane) (f : Bed → Presence) : (p.putPresences c f).jst = p.jst := rfl
@[simp] theorem putPresences_bds (p : Part) (c : Crane) (f : Bed → Presence) : (p.putPresences c f).bds = p.bds := rfl
@[simp] theorem putPresences_mks (p : Part) (c : Crane) (f : Bed → Presence) : (p.putPresences c f).mks = p.mks := rfl
@[simp] theorem putPresences_cou (p : Part) (c : Crane) (f : Bed → Presence) : (p.putPresences c f).cou = p.cou := rfl
@[simp] theorem putPresences_rsu (p : Part) (c : Crane) (f : Bed → Presence) : (p.putPresences c f).rsu = p.rsu := rfl
@[simp] theorem putPresences_flp (p : Part) (c : Crane) (f : Bed → Presence) : (p.putPresences c f).flp = p.flp := rfl
@[simp] theorem putPresences_ofp (p : Part) (c : Crane) (f : Bed → Presence) : (p.putPresences c f).ofp = p.ofp := rfl
@[simp] theorem putPresences_agenda (p : Part) (c : Crane) (f : Bed → Presence) : (p.putPresences c f).agenda = p.agenda := rfl

/-! ## Signals (R25, R26) -/

/-- The signals of one bed when the presence records of a crane become `f`. -/
def bedSignals (p : Part) (c : Crane) (f : Bed → Presence) (b : Bed) : List Task :=
  p.presenceSignal c b (p.presence c b).state (f b).state

/-- The signals of all beds, in the order of the beds (log 20). -/
def presenceSignals (p : Part) (c : Crane) (f : Bed → Presence) : List Task := allBeds.flatMap (bedSignals p c f)

theorem changePresences_eq (p : Part) (c : Crane) (f : Bed → Presence) :
    p.changePresences c f = (p.putPresences c f).emits (presenceSignals p c f) := rfl

theorem presenceSignal_length_le (p : Part) (c : Crane) (b : Bed) (x y : PresenceState) : (p.presenceSignal c b x y).length ≤ 1 := by
  unfold Part.presenceSignal
  dsimp only
  split
  · cases (p.bed b).owner <;> simp
  · split
    · split <;> simp
    · simp

theorem presenceSignals_length_le (p : Part) (c : Crane) (f : Bed → Presence) : (presenceSignals p c f).length ≤ 8 := by
  have bound : ∀ bs : List Bed, (bs.flatMap (bedSignals p c f)).length ≤ bs.length := by
    intro bs
    induction bs with
    | nil => simp
    | cons b bs ih =>
        have : (bedSignals p c f b).length ≤ 1 := presenceSignal_length_le p c b _ _
        simp only [List.flatMap_cons, List.length_append, List.length_cons]
        omega
  exact bound allBeds

/-- All these hand-offs are offers of beds. -/
def OffersOnly (ts : List Task) : Prop := ∀ t ∈ ts, ∃ b, t = .offer b

/-- Nobody waits for a bed. -/
def NobodyWaits (p : Part) : Prop := ∀ b : Bed, (p.bed b).waiting = []

theorem OffersOnly.idle {ts : List Task} (h : OffersOnly ts) {p : Part} (hw : NobodyWaits p) : ∀ t ∈ ts, p.Idle t := by
  intro t ht
  obtain ⟨b, rfl⟩ := h t ht
  exact Part.idle_offer (hw b)

/-- A bed without a burn owner gives no arrival and no clearance. -/
theorem presenceSignal_unowned {p : Part} {b : Bed} (h : (p.bed b).owner = none) (c : Crane) (x y : PresenceState) :
    OffersOnly (p.presenceSignal c b x y) := by
  unfold Part.presenceSignal
  dsimp only
  rw [h]
  split
  · simp [OffersOnly]
  · split
    · cases (p.bed b).claim <;> simp [OffersOnly]
    · simp [OffersOnly]

/-- The first report over a bed is an arrival to its owner (R25). -/
theorem presenceSignal_arrival {p : Part} {b : Bed} {g : Gantry} (h : (p.bed b).owner = some g) (c : Crane) {y : PresenceState}
    (hy : y ≠ .absent) : p.presenceSignal c b .absent y = [.arrival g] := by
  simp [Part.presenceSignal, h, hy]

/-- The crane that leaves a bed last gives its owner a clearance (R26). -/
theorem presenceSignal_clearance {p : Part} {b : Bed} {g : Gantry} (h : (p.bed b).owner = some g) {c : Crane} {x : PresenceState}
    (hx : x ≠ .absent) (ho : (p.presence (otherCrane c) b).state = .absent) : p.presenceSignal c b x .absent = [.clearance g] := by
  simp [Part.presenceSignal, h, hx, ho]

theorem flatMap_bedSignals_unowned {p : Part} {bs : List Bed} (h : ∀ b ∈ bs, (p.bed b).owner = none) (c : Crane)
    (f : Bed → Presence) : OffersOnly (bs.flatMap (bedSignals p c f)) := by
  intro t ht
  obtain ⟨b, hb, ht⟩ := List.mem_flatMap.1 ht
  exact presenceSignal_unowned (h b hb) c _ _ t ht

theorem presenceSignals_unowned {p : Part} (h : ∀ b, (p.bed b).owner = none) (c : Crane) (f : Bed → Presence) :
    OffersOnly (presenceSignals p c f) := flatMap_bedSignals_unowned (fun b _ => h b) c f

/-- Where one bed alone has a burn owner, and gives one signal, that signal stands between offers. -/
theorem presenceSignals_one_owner {p : Part} {c : Crane} {f : Bed → Presence} {b : Bed} {t : Task}
    (h : ∀ a, a ≠ b → (p.bed a).owner = none) (ht : bedSignals p c f b = [t]) :
    ∃ before after, OffersOnly before ∧ OffersOnly after ∧ before.length + after.length ≤ 7
      ∧ presenceSignals p c f = before ++ t :: after := by
  obtain ⟨l, r, hlr⟩ := List.append_of_mem (mem_allBeds b)
  have hnd : (l ++ b :: r).Nodup := hlr ▸ (by decide)
  have hl : ∀ a ∈ l, a ≠ b := fun a ha hab => (List.nodup_append.1 hnd).2.2 a ha b (by simp) hab
  have hr : ∀ a ∈ r, a ≠ b := fun a ha hab => (List.nodup_cons.1 (List.nodup_append.1 hnd).2.1).1 (hab ▸ ha)
  have hsplit : presenceSignals p c f = l.flatMap (bedSignals p c f) ++ t :: r.flatMap (bedSignals p c f) := by
    rw [presenceSignals, hlr, List.flatMap_append, List.flatMap_cons, ht, List.singleton_append]
  have hlen := presenceSignals_length_le p c f
  rw [hsplit, List.length_append, List.length_cons] at hlen
  exact ⟨_, _, flatMap_bedSignals_unowned (fun a ha => h a (hl a ha)) c f,
    flatMap_bedSignals_unowned (fun a ha => h a (hr a ha)) c f, by omega, hsplit⟩

/-- Where no bed is burned and nobody waits, a change of presences causes nothing else. -/
theorem changePresences_settled_quiet {p : Part} (ha : p.agenda = []) (hq : HallQuiet p) (c : Crane) (f : Bed → Presence) :
    (p.changePresences c f).settled = p.putPresences c f := by
  rw [changePresences_eq]
  exact Part.settled_emits_idle (p := p.putPresences c f) ha (Nat.le_trans (presenceSignals_length_le p c f) (by decide))
    ((presenceSignals_unowned (fun b => (hq b).1) c f).idle fun b => (hq b).2)

/-! ## The time base (R24, R27) -/

theorem tick_crane (p : Part) (c : Crane) : p.tick.crane c = (p.crane c).tick := by simp [Part.tick, Part.crane, look]

theorem craneTick_installed {r : CraneRec} (h : r.state ≠ .uninstalled) :
    r.tick = { r with age := if r.age < 65535 then r.age + 1 else 65535 } := by
  have hage : min 65535 (r.age + 1) = if r.age < 65535 then r.age + 1 else 65535 := by split <;> omega
  cases hs : r.state <;> simp_all [CraneRec.tick]

theorem craneTick_uninstalled {r : CraneRec} (h : r.state = .uninstalled) : r.tick = r := by simp [CraneRec.tick, h]

/-- A due poll raised, and its frame requested (R27). -/
theorem raiseDuePoll_due {p : Part} {c : Crane} (ht : (p.crane c).state = .tracking) (hd : (p.crane c).duePoll = false)
    (hage : (p.crane c).timeout < 2 * (p.crane c).age) :
    p.raiseDuePoll c = (p.setCrane c { p.crane c with duePoll := true }).request (craneStation c) (.poll true) := by
  have half : (p.crane c).timeout / 2 < (p.crane c).age := by omega
  simp [Part.raiseDuePoll, ht, hd, half]

theorem raiseDuePoll_raised {p : Part} {c : Crane} (hd : (p.crane c).duePoll = true) : p.raiseDuePoll c = p := by
  simp [Part.raiseDuePoll, hd]

/-- An event that hands nothing on and leaves the Office Port alone leaves the part it makes. -/
theorem happens_quiet {s : State} (h : Live s.part) {f : Part → Part} {q : Part} (hf : (f s.part).settled = q)
    (ho : q.ofp = s.part.ofp) : s.happens f = .next { s with part := q } :=
  happens_plain h hf (by simp [ho])

/-- Settles O50: the three rows each change the crane records, or request one frame, and hand nothing on. -/
theorem agesRiseAndDuePollsAreRaised : Obligations.AgesRiseAndDuePollsAreRaised := by
  refine ⟨fun s hl => ?_, fun s c hl ht hd hage => ?_, fun s c hl hd => ?_⟩
  · refine ⟨{ s with part := s.part.tick }, happens_quiet hl (Part.settled_nil hl.2.1) rfl, fun c hc => ?_, fun c hc => ?_, rfl⟩
    · rw [tick_crane, craneTick_installed hc]
    · rw [tick_crane, craneTick_uninstalled hc]
  · refine happens_quiet (f := fun p => p.raiseDuePoll c) hl ?_ rfl
    rw [raiseDuePoll_due ht hd hage]
    exact Part.settled_nil hl.2.1
  · refine happens_quiet (f := fun p => p.raiseDuePoll c) hl ?_ rfl
    rw [raiseDuePoll_raised hd]
    exact Part.settled_nil hl.2.1

/-! ## The crane table (R18, R19) -/

/-- A crane record replaced and its due poll withdrawn (R24): one replacement, and the frame gone. -/
theorem setCrane_withdrawDuePoll (p : Part) (c : Crane) (r : CraneRec) :
    (p.setCrane c r).withdrawDuePoll c = (p.setCrane c { r with duePoll := false }).withdraw (isDuePoll c) := by
  unfold Part.withdrawDuePoll
  rw [Part.setCrane_crane, if_pos rfl]
  simp [Part.setCrane, put_put]

/-- The crane record that a LOAD ENTRY of table CRANE leaves (R18). -/
def loadedCrane (r : CraneRec) (installed : Bool) (margin timeout rack : Nat) : CraneRec :=
  { installed := installed, margin := margin, timeout := timeout, rack := rack == 1,
    state := if installed then .lost else .uninstalled, last := if installed then r.last else none, age := 0, duePoll := false }

/-- The presence that an installed crane has over a bed, and an uninstalled one (R19). -/
def loadedPresence (p : Part) (installed : Bool) (b : Bed) : Presence := if installed then p.lostPresence b else ⟨.absent, 0⟩

/-- The part that an accepted LOAD ENTRY of table CRANE leaves, before its presence records change (R18, R162). -/
def craneLoaded (p : Part) (c : Crane) (r : CraneRec) : Part :=
  ((p.setStation (craneStation c) {}).setCrane c r).withdraw (isDuePoll c)

/-- The rack flag of a crane entry is accepted (R18): not set, or set for an installed crane when the other one has no rack. -/
def RackAccepted (p : Part) (c : Crane) (installed rack : Nat) : Prop :=
  rack = 0 ∨ (installed = 1 ∧ rack = 1 ∧ ¬ ((p.crane (otherCrane c)).installed = true ∧ (p.crane (otherCrane c)).rack = true))

theorem loadCrane_accepted {p : Part} {c : Crane} {installed margin timeout rack : Nat} (hi : installed ≤ 1) (hm : margin ≤ 50000)
    (h50 : 50 ≤ timeout) (h2000 : timeout ≤ 2000) (hb : p.craneBusy c = false) (hr : RackAccepted p c installed rack) :
    loadCrane p c installed margin timeout rack
      = accept (((craneLoaded p c (loadedCrane (p.crane c) (installed == 1) margin timeout rack)).emit (.craneReport c)).changePresences c
          (loadedPresence p (installed == 1))) := by
  have hcheck : firstFailure
      [(isYesNo installed && isYesNo rack && within 0 50000 margin && within 50 2000 timeout, .badField),
       (rack == 0 || installed == 1, .badField),
       (rack == 0 || !((p.crane (otherCrane c)).installed && (p.crane (otherCrane c)).rack), .badField),
       (!p.craneBusy c, .inUse)] = .ok := by
    rcases hr with hr | ⟨hi1, hr, hn⟩
    · simp [firstFailure, isYesNo, within, hi, hm, h50, h2000, hb, hr]
    · have hn' : ((p.crane (otherCrane c)).installed && (p.crane (otherCrane c)).rack) = false := by simpa using hn
      simp [firstFailure, isYesNo, within, hm, h50, h2000, hb, hi1, hr, hn']
  unfold loadCrane indexed checked
  rw [fin?_val]
  dsimp only
  rw [hcheck, setCrane_withdrawDuePoll]
  rfl

/-- In a quiet hall, and without an order, the change of the entry causes nothing else. -/
theorem craneLoaded_settled {p : Part} {c : Crane} (ha : p.agenda = []) (hq : HallQuiet p) (ho : p.orderQueue c = []) (r : CraneRec)
    (f : Bed → Presence) :
    (((craneLoaded p c r).emit (.craneReport c)).changePresences c f).settled = (craneLoaded p c r).putPresences c f := by
  have hrun : ((craneLoaded p c r).emit (.craneReport c)).changePresences c f
      = ((craneLoaded p c r).putPresences c f).emits (.craneReport c :: presenceSignals p c f) := by
    rw [changePresences_eq, ← emit_emits]; rfl
  have hlen := presenceSignals_length_le p c f
  have hw : NobodyWaits ((craneLoaded p c r).putPresences c f) := fun b => (hq b).2
  rw [hrun]
  refine Part.settled_emits_idle (p := (craneLoaded p c r).putPresences c f) ha (by rw [List.length_cons]; omega) fun t ht => ?_
  rcases List.mem_cons.1 ht with rfl | ht
  · exact idle_craneReport ho
  · exact OffersOnly.idle (presenceSignals_unowned (fun b => (hq b).1) c f) hw t ht

theorem loadCrane_answers {s : State} {c : Crane} {tag installed margin timeout rack : Nat}
    (hready : Ready (.loadEntryCrane tag c installed margin timeout rack) s.part) (hi : installed ≤ 1) (hm : margin ≤ 50000)
    (h50 : 50 ≤ timeout) (h2000 : timeout ≤ 2000) (hq : HallQuiet s.part) (ho : s.part.orderQueue c = [])
    (hb : s.part.craneBusy c = false) (hr : RackAccepted s.part c installed rack) :
    Answers (.loadEntryCrane tag c installed margin timeout rack) s { kind := kLoadEntry, tag := tag, code := .ok }
      ((craneLoaded s.part c (loadedCrane (s.part.crane c) (installed == 1) margin timeout rack)).putPresences c
        (loadedPresence s.part (installed == 1))) :=
  answers_settled hready rfl (loadCrane_accepted (p := s.part.taking) hi hm h50 h2000 hb hr)
    (craneLoaded_settled (p := s.part.taking) hready.1.2.1 hq ho _ _) rfl rfl

/-- Settles O30: the accepted entry replaces its records, and its report and its signals find nobody. -/
theorem loadCraneInstallsTheCrane : Obligations.LoadCraneInstallsTheCrane := by
  intro s tag margin timeout rack c hm h50 h2000 hq ho hb
  refine ⟨fun hready hrack => ?_, fun hready => ?_⟩
  · exact loadCrane_answers hready (by decide) hm h50 h2000 hq ho hb (hrack.imp_right fun h => ⟨rfl, h⟩)
  · exact loadCrane_answers hready (by decide) hm h50 h2000 hq ho hb (.inl rfl)

/-! ## Loss of a crane (R28, R29) -/

/-- The part with a TRACKING crane made LOST and its due poll withdrawn, before its presence records change (R28). -/
def craneLost (p : Part) (c : Crane) : Part := (p.setCrane c { p.crane c with state := .lost, duePoll := false }).withdraw (isDuePoll c)

theorem loseCrane_tracking {p : Part} {c : Crane} (ht : (p.crane c).state = .tracking) (cause : LossCause) :
    p.loseCrane c cause
      = ((craneLost p c).putPresences c p.lostPresence).emits
          (presenceSignals p c p.lostPresence ++ [.notice (.craneLost c cause (p.crane c).age), .craneReport c]) := by
  unfold Part.loseCrane
  dsimp only
  rw [if_pos ht, setCrane_withdrawDuePoll, changePresences_eq, emits_emits]
  rfl

theorem positionTimeout_late {p : Part} {c : Crane} (h : (p.crane c).timeout ≤ (p.crane c).age) :
    p.positionTimeout c = p.loseCrane c .timeout := if_pos h

theorem positionTimeout_early {p : Part} {c : Crane} (h : (p.crane c).age < (p.crane c).timeout) : p.positionTimeout c = p :=
  if_neg (Nat.not_le.2 h)

/-- What is left to run behind the signals of a loss, when the crane has no order: the notice. -/
theorem settle_notice_report (n : Nat) {p : Part} {c : Crane} (x : Notice) (ha : p.agenda = []) (ho : p.orderQueue c = []) :
    settle (n + 2) (p.emits [.notice x, .craneReport c]) = settle n (p.notify x) := by
  have hreport : (p.notify x).micro (.craneReport c) = p.notify x := micro_of_idle (by exact ha) (idle_craneReport (by exact ho))
  rw [settle_emits _ _ _ ha, settle_emits _ _ _ (by exact ha), show p.micro (.notice x) = p.notify x from rfl, hreport, Part.emits_nil]

/-- In a quiet hall a loss gives its notice and nothing else. -/
theorem loseCrane_settled_quiet {p : Part} {c : Crane} (ha : p.agenda = []) (ht : (p.crane c).state = .tracking) (hq : HallQuiet p)
    (ho : p.orderQueue c = []) (cause : LossCause) :
    (p.loseCrane c cause).settled
      = ((craneLost p c).putPresences c p.lostPresence).notify (.craneLost c cause (p.crane c).age) := by
  have hw : NobodyWaits ((craneLost p c).putPresences c p.lostPresence) := fun b => (hq b).2
  have hlen := presenceSignals_length_le p c p.lostPresence
  rw [loseCrane_tracking ht]
  refine Part.settled_eq (0 + 2 + (presenceSignals p c p.lostPresence).length) (by omega) ?_ (by exact ha)
  rw [settle_emits_idle _ _ (by exact ha) (OffersOnly.idle (presenceSignals_unowned (fun b => (hq b).1) c _) hw),
    settle_notice_report 0 _ (by exact ha) (by exact ho), settle_nil _ (by exact ha)]

/-! ## Arrival in CUT (R87) -/

/-- Nothing of the gantry's segments is pending. -/
def AllSegmentsSent (p : Part) (g : Gantry) : Prop := ∀ r ∈ p.flp.pending, isSegment g r = false

theorem unsentRecords_sent {p : Part} {g : Gantry} (h : AllSegmentsSent p g) : p.unsentRecords g = [] := by
  have hnone : p.pendingSegments g = [] := by
    rw [Part.pendingSegments, List.filterMap_eq_nil_iff]
    intro r hr
    simp [h r hr]
  simp [Part.unsentRecords, hnone]

theorem setEngine_self (p : Part) (g : Gantry) : p.setEngine g (p.engine g) = p := by simp [Part.setEngine, Part.engine, put_look]

theorem withdraw_absent {p : Part} {what : FloorRequest → Bool} (h : ∀ r ∈ p.flp.pending, what r = false) : p.withdraw what = p := by
  have hkeep : p.flp.pending.filter (fun r => !what r) = p.flp.pending := List.filter_eq_self.2 fun r hr => by simp [h r hr]
  simp [Part.withdraw, FloorPort.withdraw, hkeep]

theorem withdrawSegments_sent {p : Part} {g : Gantry} (h : AllSegmentsSent p g) : p.withdrawSegments g = p := by
  unfold Part.withdrawSegments
  rw [unsentRecords_sent h]
  have hkept : (p.engine g).outstanding.filter (fun i => !([] : List Nat).contains i) = (p.engine g).outstanding :=
    List.filter_eq_self.2 fun _ _ => rfl
  dsimp only
  rw [hkept]
  exact (congrArg (fun q => q.withdraw (isSegment g)) (setEngine_self p g)).trans (withdraw_absent h)

/-- The part with the engine STOPPED, its stop point still to come, and an ARC STOP requested (R87). -/
def cutStopped (p : Part) (g : Gantry) : Part :=
  (p.setEngine g { p.engine g with state := .stopped, stopPoint := none }).request (gantryStation g) (.arcStop .engine)

theorem stopCut_sent {p : Part} {g : Gantry} (h : AllSegmentsSent p g) (ho : (p.engine g).outstanding ≠ []) :
    p.stopCut g = cutStopped p g := by
  unfold Part.stopCut
  dsimp only
  rw [withdrawSegments_sent h, Part.request_engine, if_neg (by simpa using ho)]
  rfl

/-- A STOPPED engine reports its stored held reasons alone (R67). -/
theorem reportedHeld_stopped {p : Part} {g : Gantry} (h : (p.engine g).state = .stopped) :
    p.reportedHeld g = { stored := (p.engine g).held } := by
  simp [Part.reportedHeld, h]

/-- An arrival in CUT, every segment sent and some not yet reported done. -/
theorem arrival_cut {p : Part} {g : Gantry} (hs : (p.engine g).state = .cut) (h : AllSegmentsSent p g)
    (ho : (p.engine g).outstanding ≠ []) :
    p.arrival g
      = (cutStopped p g).notify
          (.gantryState g .stopped { stored := (p.engine g).held } (p.engine g).job (p.engine g).counters.lastPart .arrival none none) := by
  have he : (cutStopped p g).engine g = { p.engine g with state := .stopped, stopPoint := none } := by simp [cutStopped]
  unfold Part.arrival
  simp only [hs, stopCut_sent h ho, Part.stateNotice, reportedHeld_stopped (show ((cutStopped p g).engine g).state = .stopped by rw [he]), he]

/-- Two notices of one event: the first is being sent, or both are queued or dropped (R180, R181). -/
theorem notify_notify_transmit {p : Part} (h : p.ofp.sending = none → p.ofp.replies = [] ∧ p.ofp.notices = []) (a b : Notice) :
    ((p.notify a).notify b).transmit = { p with ofp := (p.ofp.given a).notify b } := by
  cases hs : p.ofp.sending with
  | some f =>
      rw [Part.transmit_busy (f := f) (by simp [hs])]
      simp [Part.notify, OfficePort.given, hs]
  | none =>
      obtain ⟨hr, hn⟩ := h hs
      simp [Part.notify, OfficePort.notify, OfficePort.given, Part.transmit, hs, hr, hn, noticeCapacity]

/-- A loss over the one burned bed, the crane not over it before: the arrival stops the cut, and its notice comes first (R28, R87). -/
theorem loseCrane_settled_arrival {p : Part} {c : Crane} {b : Bed} {g : Gantry} (ha : p.agenda = [])
    (ht : (p.crane c).state = .tracking) (ho : p.orderQueue c = [])
    (hothers : ∀ a : Bed, (p.bed a).waiting = [] ∧ (a ≠ b → (p.bed a).owner = none)) (hg : (p.bed b).owner = some g)
    (hb : (p.bed b).loaded = true) (habs : (p.presence c b).state = .absent) (hcut : (p.engine g).state = .cut)
    (hout : (p.engine g).outstanding ≠ []) (hsent : AllSegmentsSent p g) (cause : LossCause) :
    (p.loseCrane c cause).settled
      = ((cutStopped ((craneLost p c).putPresences c p.lostPresence) g).notify
          (.gantryState g .stopped { stored := (p.engine g).held } (p.engine g).job (p.engine g).counters.lastPart .arrival none none)).notify
          (.craneLost c cause (p.crane c).age) := by
  let lost := (craneLost p c).putPresences c p.lostPresence
  have hsignal : bedSignals p c p.lostPresence b = [.arrival g] := by
    rw [bedSignals, habs]
    exact presenceSignal_arrival hg c (by simp [Part.lostPresence, hb])
  obtain ⟨before, after, hbefore, hafter, hlen, hsignals⟩ := presenceSignals_one_owner (fun a => (hothers a).2) hsignal
  have hsent' : AllSegmentsSent lost g := fun r hr => hsent r (List.mem_filter.1 hr).1
  have harrival : lost.micro (.arrival g) = _ := arrival_cut (p := lost) hcut hsent' hout
  have hw : NobodyWaits lost := fun a => (hothers a).1
  rw [loseCrane_tracking ht, hsignals, List.append_assoc, List.cons_append]
  refine Part.settled_eq (0 + 2 + after.length + 1 + before.length) (by omega) ?_ (by exact ha)
  rw [settle_emits_idle _ _ (by exact ha) (hbefore.idle hw), settle_emits _ _ _ (by exact ha), harrival,
    settle_emits_idle _ _ (by exact ha) (hafter.idle (by exact hw)), settle_notice_report 0 _ (by exact ha) (by exact ho),
    settle_nil _ (by exact ha)]
  rfl

/-- Settles O51: the loss in a quiet hall, the timeout not yet reached, and the loss over a bed that is cut. -/
theorem aPositionTimeoutLosesTheCrane : Obligations.APositionTimeoutLosesTheCrane := by
  refine ⟨fun s c hl ht hage hq ho => ?_, fun s c hl hage => ?_, fun s c b g hl ht hage ho hothers hg hb habs hcut hout hpend => ?_⟩
  · refine (happens_live hl (fun p => p.positionTimeout c)).trans ?_
    rw [positionTimeout_late hage, loseCrane_settled_quiet hl.2.1 ht hq ho, Part.notify_transmit (by exact hl.2.2)]
    rfl
  · refine happens_quiet (f := fun p => p.positionTimeout c) hl ?_ rfl
    rw [positionTimeout_early hage]
    exact Part.settled_nil hl.2.1
  · have hsent : AllSegmentsSent s.part g := by
      intro r hr
      by_cases hst : r.station = gantryStation g
      · simp [isSegment, (hpend r hr hst).2]
      · simp [isSegment, hst]
    refine (happens_live hl (fun p => p.positionTimeout c)).trans ?_
    rw [positionTimeout_late hage, loseCrane_settled_arrival hl.2.1 ht ho hothers hg hb habs hcut hout hsent,
      notify_notify_transmit (by exact hl.2.2)]
    rfl

/-! ## A crane's answer to a poll (R163, R164, R170) -/

theorem stationGantry?_crane (c : Crane) : stationGantry? (craneStation c) = none := by revert c; decide

theorem stationCrane?_crane (c : Crane) : stationCrane? (craneStation c) = some c := by revert c; decide

/-- A good answer of a station that is not LOST clears its misses (R164). -/
theorem foundStation_present {p : Part} {x : Station} (h : (p.station x).lost = false) :
    p.foundStation x = p.setStation x { p.station x with misses := 0 } := by
  simp [Part.foundStation, h]

/-- A position that answers a poll, without an order event, ends the transaction and is taken by the crane's state. -/
theorem answered_cranePoll {p : Part} {c : Crane} {due : Bool} {w : Nat}
    (hf : p.flp.inFlight = some ⟨⟨craneStation c, .poll due⟩, w⟩) (hl : (p.station (craneStation c)).lost = false) (x y : Int)
    (hookLow loaded : Bool) (kind : Nat) (payload : List Byte) :
    p.answered ⟨stationAddress (craneStation c), kind, payload⟩ (.position x y hookLow loaded none)
      = (p.answerTaken (craneStation c)).takePosition c x y hookLow loaded := by
  have hfits : answerFits (craneStation c) (.poll due) (.position x y hookLow loaded none) = true := by
    simp [answerFits, stationGantry?_crane, FloorFrame.isPoll, FloorFrame.kind]
  have hfound : ({ p with flp := { p.flp with inFlight := none } } : Part).foundStation (craneStation c)
      = p.answerTaken (craneStation c) := foundStation_present hl
  unfold Part.answered
  simp only [hf, ne_eq, not_true_eq_false, if_false, hfits, if_true, hfound]
  simp only [Part.deliver, stationCrane?_crane, Part.deliverPosition]

@[simp] theorem answerTaken_crane (p : Part) (x : Station) (c : Crane) : (p.answerTaken x).crane c = p.crane c := rfl
@[simp] theorem answerTaken_presence (p : Part) (x : Station) (c : Crane) (b : Bed) : (p.answerTaken x).presence c b = p.presence c b := rfl
@[simp] theorem answerTaken_jst (p : Part) (x : Station) : (p.answerTaken x).jst = p.jst := rfl
@[simp] theorem answerTaken_bds (p : Part) (x : Station) : (p.answerTaken x).bds = p.bds := rfl
@[simp] theorem answerTaken_mks (p : Part) (x : Station) : (p.answerTaken x).mks = p.mks := rfl
@[simp] theorem answerTaken_cou (p : Part) (x : Station) : (p.answerTaken x).cou = p.cou := rfl
@[simp] theorem answerTaken_rsu (p : Part) (x : Station) : (p.answerTaken x).rsu = p.rsu := rfl
@[simp] theorem answerTaken_ofp (p : Part) (x : Station) : (p.answerTaken x).ofp = p.ofp := rfl
@[simp] theorem answerTaken_bed (p : Part) (x : Station) (b : Bed) : (p.answerTaken x).bed b = p.bed b := rfl
@[simp] theorem answerTaken_engine (p : Part) (x : Station) (g : Gantry) : (p.answerTaken x).engine g = p.engine g := rfl
@[simp] theorem answerTaken_inFlight (p : Part) (x : Station) : (p.answerTaken x).flp.inFlight = none := rfl
@[simp] theorem answerTaken_pending (p : Part) (x : Station) : (p.answerTaken x).flp.pending = p.flp.pending := rfl
@[simp] theorem answerTaken_station (p : Part) (x : Station) :
    (p.answerTaken x).station x = { p.station x with misses := 0 } := by
  simp [Part.answerTaken]

/-- The report that a position is stored as (R21). -/
def clampedReport (p : Part) (x y : Int) (hookLow loaded : Bool) : Report :=
  ⟨clampTo p.hmp.hallLength x, clampTo p.hmp.hallWidth y, hookLow, loaded⟩

theorem takePosition_tracking {p : Part} {c : Crane} (h : (p.crane c).state = .tracking) (x y : Int) (hookLow loaded : Bool) :
    p.takePosition c x y hookLow loaded = p.takeReport c (clampedReport p x y hookLow loaded) := by
  simp [Part.takePosition, h, clampedReport]

theorem takePosition_lost {p : Part} {c : Crane} (h : (p.crane c).state = .lost) (x y : Int) (hookLow loaded : Bool) :
    p.takePosition c x y hookLow loaded = p.takeRecovery c (clampedReport p x y hookLow loaded) := by
  simp [Part.takePosition, h, clampedReport]

/-! ## Judgement and presence (R22, R23) -/

theorem judge_loaded {p : Part} {b : Bed} {q : Rect} (hb : (p.bed b).loaded = true) (hq : (p.bed b).rect = some q) (c : Crane)
    (r : Report) : p.judge c r b = some (insideBed (p.crane c).margin q r.x r.y) := by
  simp [Part.judge, hb, hq]

theorem judge_unloaded {p : Part} {b : Bed} (hb : (p.bed b).loaded = false) (c : Crane) (r : Report) : p.judge c r b = none := by
  simp [Part.judge, hb]

theorem insideBed_iff (margin : Nat) (q : Rect) (x y : Int) :
    insideBed margin q x y = true ↔ q.xLo - margin ≤ x ∧ x ≤ q.xHi + margin ∧ q.yLo - margin ≤ y ∧ y ≤ q.yHi + margin := by
  simp [insideBed, and_assoc]

theorem insideBed_outside {margin : Nat} {q : Rect} {x y : Int}
    (h : ¬ (q.xLo - margin ≤ x ∧ x ≤ q.xHi + margin ∧ q.yLo - margin ≤ y ∧ y ≤ q.yHi + margin)) : insideBed margin q x y = false :=
  Bool.eq_false_iff.2 (mt (insideBed_iff margin q x y).1 h)

theorem move_inside (s : Presence) : s.move true = if s.state = .present then s else { state := .present, count := 0 } := by
  cases h : s.state <;> simp [Presence.move, h]

theorem move_outside_absent {s : Presence} (h : s.state = .absent) : s.move false = s := by simp [Presence.move, h]

theorem move_outside_present {s : Presence} (h : s.state = .present) : s.move false = { state := .clearing, count := 1 } := by
  simp [Presence.move, h]

theorem move_outside_clearing {s : Presence} (h : s.state = .clearing) (hc : s.count ≤ 14) :
    s.move false = { state := .clearing, count := s.count + 1 } := by
  simp [Presence.move, h, hc]

theorem move_outside_cleared {s : Presence} (h : s.state = .clearing) (hc : 15 ≤ s.count) :
    s.move false = { state := .absent, count := 0 } := by
  have : ¬ s.count ≤ 14 := by omega
  simp [Presence.move, h, this]

/-- A presence record after `k` reports outside the bed: CLEARING counts the reports up to 15, the next one makes it ABSENT. -/
theorem repeat_move_outside (count k : Nat) :
    Nat.repeat (fun x => Presence.move x false) k { state := .present, count := count }
      = if k = 0 then { state := .present, count := count }
        else if k ≤ 15 then { state := .clearing, count := k } else { state := .absent, count := 0 } := by
  induction k with
  | zero => rfl
  | succ k ih =>
      rw [Nat.repeat, ih, if_neg (Nat.succ_ne_zero k)]
      by_cases h0 : k = 0
      · subst h0; rfl
      · rw [if_neg h0]
        by_cases h14 : k ≤ 14
        · rw [if_pos (by omega : k ≤ 15), if_pos (by omega : k + 1 ≤ 15)]
          exact move_outside_clearing rfl h14
        · rw [if_neg (by omega : ¬ k + 1 ≤ 15)]
          by_cases h15 : k ≤ 15
          · rw [if_pos h15]; exact move_outside_cleared rfl (by dsimp only; omega)
          · rw [if_neg h15]; rfl

/-! ## The report of a TRACKING crane (R22 to R26) -/

/-- The presence records of a TRACKING crane after a report (R23). -/
def movedPresence (p : Part) (c : Crane) (r : Report) (b : Bed) : Presence :=
  match p.judge c r b with
  | some inside => (p.presence c b).move inside
  | none => p.presence c b

theorem movedPresence_loaded {p : Part} {b : Bed} {q : Rect} (hb : (p.bed b).loaded = true) (hq : (p.bed b).rect = some q) (c : Crane)
    (r : Report) : movedPresence p c r b = (p.presence c b).move (insideBed (p.crane c).margin q r.x r.y) := by
  simp [movedPresence, judge_loaded hb hq]

theorem movedPresence_unloaded {p : Part} {b : Bed} (hb : (p.bed b).loaded = false) (c : Crane) (r : Report) :
    movedPresence p c r b = p.presence c b := by
  simp [movedPresence, judge_unloaded hb]

/-- The part with a report stored and the due poll withdrawn, before the presence records move (R24). -/
def reportStored (p : Part) (c : Crane) (r : Report) : Part :=
  (p.setCrane c { p.crane c with last := some r, age := 0, duePoll := false }).withdraw (isDuePoll c)

@[simp] theorem reportStored_crane (p : Part) (c d : Crane) (r : Report) :
    (reportStored p c r).crane d = if c = d then { p.crane c with last := some r, age := 0, duePoll := false } else p.crane d := by
  simp [reportStored]
@[simp] theorem reportStored_presence (p : Part) (c d : Crane) (r : Report) (b : Bed) :
    (reportStored p c r).presence d b = p.presence d b := rfl
@[simp] theorem reportStored_station (p : Part) (c : Crane) (r : Report) (x : Station) :
    (reportStored p c r).station x = p.station x := rfl

@[simp] theorem reportStored_jst (p : Part) (c : Crane) (r : Report) : (reportStored p c r).jst = p.jst := rfl
@[simp] theorem reportStored_bds (p : Part) (c : Crane) (r : Report) : (reportStored p c r).bds = p.bds := rfl
@[simp] theorem reportStored_mks (p : Part) (c : Crane) (r : Report) : (reportStored p c r).mks = p.mks := rfl
@[simp] theorem reportStored_cou (p : Part) (c : Crane) (r : Report) : (reportStored p c r).cou = p.cou := rfl
@[simp] theorem reportStored_rsu (p : Part) (c : Crane) (r : Report) : (reportStored p c r).rsu = p.rsu := rfl
@[simp] theorem reportStored_ofp (p : Part) (c : Crane) (r : Report) : (reportStored p c r).ofp = p.ofp := rfl
@[simp] theorem reportStored_bed (p : Part) (c : Crane) (r : Report) (b : Bed) : (reportStored p c r).bed b = p.bed b := rfl
@[simp] theorem reportStored_engine (p : Part) (c : Crane) (r : Report) (g : Gantry) : (reportStored p c r).engine g = p.engine g := rfl
@[simp] theorem reportStored_inFlight (p : Part) (c : Crane) (r : Report) : (reportStored p c r).flp.inFlight = p.flp.inFlight := rfl
@[simp] theorem reportStored_pending (p : Part) (c : Crane) (r : Report) :
    (reportStored p c r).flp.pending = p.flp.pending.filter (fun x => !isDuePoll c x) := rfl

/-- Without an order on the crane nobody reads the report but the presence records. -/
theorem takeReport_unordered {p : Part} {c : Crane} (ho : p.orderQueue c = []) (r : Report) :
    p.takeReport c r = (reportStored p c r).changePresences c (movedPresence p c r) := by
  have hhook : p.headFromHook c = false := by simp [Part.headFromHook, ho]
  unfold Part.takeReport
  dsimp only
  rw [hhook, Bool.and_false, if_neg (by decide), setCrane_withdrawDuePoll]
  rfl

/-! ## The first report of a LOST crane (R30) -/

/-- The presence records of a crane found again (R30). -/
def foundPresence (p : Part) (c : Crane) (r : Report) (b : Bed) : Presence :=
  match p.judge c r b with
  | some true => ⟨.present, 0⟩
  | some false => ⟨.clearing, 1⟩
  | none => p.presence c b

theorem foundPresence_loaded {p : Part} {b : Bed} {q : Rect} (hb : (p.bed b).loaded = true) (hq : (p.bed b).rect = some q) (c : Crane)
    (r : Report) :
    foundPresence p c r b
      = if insideBed (p.crane c).margin q r.x r.y then { state := .present, count := 0 } else { state := .clearing, count := 1 } := by
  unfold foundPresence
  rw [judge_loaded hb hq]
  cases insideBed (p.crane c).margin q r.x r.y <;> rfl

theorem foundPresence_unloaded {p : Part} {b : Bed} (hb : (p.bed b).loaded = false) (c : Crane) (r : Report) :
    foundPresence p c r b = p.presence c b := by
  simp [foundPresence, judge_unloaded hb]

/-- The part with a LOST crane found by a report (R30), before its notice. -/
def craneFound (p : Part) (c : Crane) (r : Report) : Part :=
  (p.setCrane c { p.crane c with last := some r, age := 0, state := .tracking }).putPresences c (foundPresence p c r)

@[simp] theorem craneFound_crane (p : Part) (c d : Crane) (r : Report) :
    (craneFound p c r).crane d = if c = d then { p.crane c with last := some r, age := 0, state := .tracking } else p.crane d := by
  simp [craneFound]
@[simp] theorem craneFound_presence (p : Part) (c d : Crane) (r : Report) (b : Bed) :
    (craneFound p c r).presence d b = if c = d then foundPresence p c r b else p.presence d b := by
  simp [craneFound]

@[simp] theorem craneFound_flp (p : Part) (c : Crane) (r : Report) : (craneFound p c r).flp = p.flp := rfl
@[simp] theorem craneFound_jst (p : Part) (c : Crane) (r : Report) : (craneFound p c r).jst = p.jst := rfl
@[simp] theorem craneFound_bds (p : Part) (c : Crane) (r : Report) : (craneFound p c r).bds = p.bds := rfl
@[simp] theorem craneFound_mks (p : Part) (c : Crane) (r : Report) : (craneFound p c r).mks = p.mks := rfl
@[simp] theorem craneFound_cou (p : Part) (c : Crane) (r : Report) : (craneFound p c r).cou = p.cou := rfl
@[simp] theorem craneFound_rsu (p : Part) (c : Crane) (r : Report) : (craneFound p c r).rsu = p.rsu := rfl
@[simp] theorem craneFound_ofp (p : Part) (c : Crane) (r : Report) : (craneFound p c r).ofp = p.ofp := rfl
@[simp] theorem craneFound_bed (p : Part) (c : Crane) (r : Report) (b : Bed) : (craneFound p c r).bed b = p.bed b := rfl

theorem takeRecovery_eq (p : Part) (c : Crane) (r : Report) :
    p.takeRecovery c r = ((craneFound p c r).notify (.craneFound c r)).emit (.craneReport c) := rfl

/-- The part with a notice given at the end of an event (R180, R181). -/
def noticeGiven (p : Part) (n : Notice) : Part := { p with ofp := p.ofp.given n }

@[simp] theorem noticeGiven_bed (p : Part) (n : Notice) (b : Bed) : (noticeGiven p n).bed b = p.bed b := rfl
@[simp] theorem noticeGiven_crane (p : Part) (n : Notice) (c : Crane) : (noticeGiven p n).crane c = p.crane c := rfl
@[simp] theorem noticeGiven_presence (p : Part) (n : Notice) (c : Crane) (b : Bed) : (noticeGiven p n).presence c b = p.presence c b := rfl
@[simp] theorem noticeGiven_flp (p : Part) (n : Notice) : (noticeGiven p n).flp = p.flp := rfl
@[simp] theorem noticeGiven_jst (p : Part) (n : Notice) : (noticeGiven p n).jst = p.jst := rfl
@[simp] theorem noticeGiven_bds (p : Part) (n : Notice) : (noticeGiven p n).bds = p.bds := rfl
@[simp] theorem noticeGiven_mks (p : Part) (n : Notice) : (noticeGiven p n).mks = p.mks := rfl
@[simp] theorem noticeGiven_cou (p : Part) (n : Notice) : (noticeGiven p n).cou = p.cou := rfl
@[simp] theorem noticeGiven_rsu (p : Part) (n : Notice) : (noticeGiven p n).rsu = p.rsu := rfl
@[simp] theorem noticeGiven_ofp (p : Part) (n : Notice) : (noticeGiven p n).ofp = p.ofp.given n := rfl

/-! ## The statement on a position -/

theorem exec_position {s : State} (h : Live s.part) {c : Crane} {due : Bool} {w : Nat}
    (hf : s.part.flp.inFlight = some ⟨⟨craneStation c, .poll due⟩, w⟩) (hl : (s.part.station (craneStation c)).lost = false) (x y : Int)
    (hookLow loaded : Bool) :
    exec (.cranePollAnswer (stationAddress (craneStation c)) x y hookLow loaded none) s
      = .next { s with
          part := ((s.part.answerTaken (craneStation c)).takePosition c x y hookLow loaded).settled.transmit } := by
  refine (happens_live h (fun p => p.answered ⟨stationAddress (craneStation c), 0x83, positionBytes x y hookLow loaded none⟩
    (.position x y hookLow loaded none))).trans ?_
  rw [answered_cranePoll hf hl]

/-- A report in a quiet hall, from a crane without an order. -/
theorem exec_position_quiet {s : State} (h : Live s.part) {c : Crane} {due : Bool} {w : Nat}
    (hf : s.part.flp.inFlight = some ⟨⟨craneStation c, .poll due⟩, w⟩) (hl : (s.part.station (craneStation c)).lost = false)
    (ht : (s.part.crane c).state = .tracking) (hq : HallQuiet s.part) (ho : s.part.orderQueue c = []) (x y : Int)
    (hookLow loaded : Bool) :
    let taken := s.part.answerTaken (craneStation c)
    let r := clampedReport s.part x y hookLow loaded
    exec (.cranePollAnswer (stationAddress (craneStation c)) x y hookLow loaded none) s
      = .next { s with part := (reportStored taken c r).putPresences c (movedPresence s.part c r) } := by
  dsimp only
  rw [exec_position h hf hl, takePosition_tracking (by exact ht), takeReport_unordered (by exact ho),
    changePresences_settled_quiet (by exact h.2.1) (by exact hq), Part.transmit_rest (by exact h.2.2)]
  rfl

/-- A recovery of a crane without an order. -/
theorem exec_position_found {s : State} (h : Live s.part) {c : Crane} {due : Bool} {w : Nat}
    (hf : s.part.flp.inFlight = some ⟨⟨craneStation c, .poll due⟩, w⟩) (hl : (s.part.station (craneStation c)).lost = false)
    (ht : (s.part.crane c).state = .lost) (ho : s.part.orderQueue c = []) (x y : Int) (hookLow loaded : Bool) :
    let taken := s.part.answerTaken (craneStation c)
    let r := clampedReport s.part x y hookLow loaded
    exec (.cranePollAnswer (stationAddress (craneStation c)) x y hookLow loaded none) s
      = .next { s with part := noticeGiven (craneFound taken c r) (.craneFound c r) } := by
  dsimp only
  rw [exec_position h hf hl, takePosition_lost (by exact ht), takeRecovery_eq,
    Part.settled_emit_idle (by exact h.2.1) (idle_craneReport (by exact ho)), Part.notify_transmit (by exact h.2.2)]
  rfl

/-- The presence records of the other crane are as before. -/
theorem putPresences_other {p : Part} (c : Crane) (f : Bed → Presence) (b : Bed) :
    (p.putPresences c f).presence (otherCrane c) b = p.presence (otherCrane c) b := by
  rw [putPresences_presence, if_neg (otherCrane_ne c).symm]

/-- Settles O44: the quiet report moves each record by one judgement, the recovery sets each by one. -/
theorem aPositionMovesThePresences : Obligations.APositionMovesThePresences := by
  refine ⟨fun s c w due x y hookLow loaded h hf ht hl hq ho => ?_, fun s c w due x y hookLow loaded h hf ht hl ho => ?_⟩
  · refine ⟨_, exec_position_quiet h hf hl ht hq ho x y hookLow loaded, ?_, fun b q hb hr => ?_, fun b hb => ?_,
      fun b => ⟨putPresences_other c _ b, ?_⟩, ?_⟩
    · simp [clampedReport]
    · have hmove := movedPresence_loaded hb hr c (clampedReport s.part x y hookLow loaded)
      simp only [putPresences_presence, if_true, hmove]
      dsimp only [clampedReport]
      refine ⟨fun hin => ?_, fun hout ha => ?_, fun hout hp => ?_, fun hout hc h14 => ?_, fun hout hc h15 => ?_⟩
      · rw [(insideBed_iff _ _ _ _).2 hin, move_inside]
      · rw [insideBed_outside hout, move_outside_absent ha]
      · rw [insideBed_outside hout, move_outside_present hp]
      · rw [insideBed_outside hout, move_outside_clearing hc h14]
      · rw [insideBed_outside hout, move_outside_cleared hc h15]
    · simp [movedPresence_unloaded hb]
    · simp
    · simp [(otherCrane_ne c).symm]
  · refine ⟨_, exec_position_found h hf hl ht ho x y hookLow loaded, ?_, fun b q hb hr => ?_, fun b hb => ?_, fun b => ⟨?_, ?_⟩, ?_⟩
    · simp [clampedReport]
    · have hfound := foundPresence_loaded (p := s.part.answerTaken (craneStation c)) hb hr c (clampedReport s.part x y hookLow loaded)
      simp only [noticeGiven_presence, craneFound_presence, if_true, hfound, insideBed_iff]
      rfl
    · simp [foundPresence_unloaded (p := s.part.answerTaken (craneStation c)) hb]
    · simp [(otherCrane_ne c).symm]
    · simp
    · simp [(otherCrane_ne c).symm, clampedReport]

/-! ## Clearance of a STOPPED cut (R26, R90) -/

theorem segmentFor_line {p : Part} {g : Gantry} {u v : Nat} {q : Point} (h : p.transform g u v = some q) (feed len : Nat) :
    p.segmentFor g (.line u v feed len) = some (.line q feed len) := by
  obtain ⟨r, hr, hq⟩ := Option.bind_eq_some_iff.1 h
  simp [Part.segmentFor, segmentOf, hr, hq]

/-- The part with the engine in CUT again behind a RESUME of its stop record (R90). -/
def cutResumed (p : Part) (g : Gantry) (i fraction : Nat) (body : SegmentBody) : Part :=
  (p.setEngine g
    { p.engine g with
      state := .cut, retryCount := 0, stopPoint := none, credit := (p.engine g).credit - 1, outstanding := [i],
      nextRecord := some (i + 1) }).request (gantryStation g) (.resume i body fraction)

@[simp] theorem cutResumed_engine (p : Part) (g k : Gantry) (i fraction : Nat) (body : SegmentBody) :
    (cutResumed p g i fraction body).engine k
      = if g = k then
          { p.engine g with
            state := .cut, retryCount := 0, stopPoint := none, credit := (p.engine g).credit - 1, outstanding := [i],
            nextRecord := some (i + 1) }
        else p.engine k := by
  simp [cutResumed]
@[simp] theorem cutResumed_hmp (p : Part) (g : Gantry) (i fraction : Nat) (body : SegmentBody) :
    (cutResumed p g i fraction body).hmp = p.hmp := rfl
@[simp] theorem cutResumed_bed (p : Part) (g : Gantry) (i fraction : Nat) (body : SegmentBody) (b : Bed) :
    (cutResumed p g i fraction body).bed b = p.bed b := rfl
@[simp] theorem cutResumed_presence (p : Part) (g : Gantry) (i fraction : Nat) (body : SegmentBody) (c : Crane) (b : Bed) :
    (cutResumed p g i fraction body).presence c b = p.presence c b := rfl
@[simp] theorem cutResumed_jst (p : Part) (g : Gantry) (i fraction : Nat) (body : SegmentBody) :
    (cutResumed p g i fraction body).jst = p.jst := rfl
@[simp] theorem cutResumed_registrations (p : Part) (g : Gantry) (i fraction : Nat) (body : SegmentBody) :
    (cutResumed p g i fraction body).bds.registrations = p.bds.registrations := rfl
@[simp] theorem cutResumed_params (p : Part) (g : Gantry) (i fraction : Nat) (body : SegmentBody) :
    (cutResumed p g i fraction body).bds.params = p.bds.params := rfl
@[simp] theorem cutResumed_mks (p : Part) (g : Gantry) (i fraction : Nat) (body : SegmentBody) :
    (cutResumed p g i fraction body).mks = p.mks := rfl
@[simp] theorem cutResumed_cou (p : Part) (g : Gantry) (i fraction : Nat) (body : SegmentBody) :
    (cutResumed p g i fraction body).cou = p.cou := rfl
@[simp] theorem cutResumed_rsu (p : Part) (g : Gantry) (i fraction : Nat) (body : SegmentBody) :
    (cutResumed p g i fraction body).rsu = p.rsu := rfl
@[simp] theorem cutResumed_ofp (p : Part) (g : Gantry) (i fraction : Nat) (body : SegmentBody) :
    (cutResumed p g i fraction body).ofp = p.ofp := rfl
@[simp] theorem cutResumed_agenda (p : Part) (g : Gantry) (i fraction : Nat) (body : SegmentBody) :
    (cutResumed p g i fraction body).agenda = p.agenda := rfl
@[simp] theorem cutResumed_inFlight (p : Part) (g : Gantry) (i fraction : Nat) (body : SegmentBody) :
    (cutResumed p g i fraction body).flp.inFlight = p.flp.inFlight := rfl
@[simp] theorem cutResumed_pending (p : Part) (g : Gantry) (i fraction : Nat) (body : SegmentBody) :
    (cutResumed p g i fraction body).flp.pending = p.flp.pending ++ [⟨gantryStation g, .resume i body fraction⟩] := rfl

/-- A clearance of an engine STOPPED at a known point of a LINE (R90): the RESUME is requested, and the engine reads on. -/
theorem clearance_line {p : Part} {g : Gantry} {j : JobNo} {i fraction u v feed len : Nat} {q : Point}
    (hs : (p.engine g).state = .stopped) (hp : (p.engine g).stopPoint = some (i, fraction))
    (ho : (p.engine g).pendingOutcome = none) (hj : (p.engine g).job = some j) (hr : p.record j i = .line u v feed len)
    (ht : p.transform g u v = some q) :
    p.clearance g = (cutResumed p g i fraction (.line q feed len)).emit (.stream g) := by
  have hclear : p.clearance g = p.resume g i fraction := by simp [Part.clearance, hs, hp, ho]
  rw [hclear]
  simp only [Part.resume, hj, hr, segmentFor_line ht, cutResumed]

/-- An engine in CUT with a segment outstanding waits before a PIERCE (R84). -/
theorem stream_before_pierce {p : Part} {g : Gantry} {j : JobNo} {i u v current : Nat} (hs : (p.engine g).state = .cut)
    (hj : (p.engine g).job = some j) (hn : (p.engine g).nextRecord = some i) (hr : p.record j i = .pierce u v current)
    (ho : (p.engine g).outstanding ≠ []) : p.stream g = p := by
  simp [Part.stream, hs, hj, hn, hr, ho]

/-- The records of a job are a matter of the Job Store alone. -/
theorem record_congr {p q : Part} (h : q.jst = p.jst) (j : JobNo) (i : Nat) : q.record j i = p.record j i := by
  unfold Part.record Part.job
  rw [h]

/-- What a transform answers is a matter of the Burn Dispatcher's records alone. -/
theorem transform_congr {p q : Part} (h : q.bds = p.bds) (g : Gantry) (u v : Nat) : q.transform g u v = p.transform g u v := by
  unfold Part.transform Part.registration Part.params
  rw [h]

/-- The engine is STOPPED at a known point of a LINE that is followed by a PIERCE: a clearance lets it resume, with nothing behind the
RESUME (R90). -/
structure StoppedOnLine (p : Part) (g : Gantry) (j : JobNo) (i fraction : Nat) (body : SegmentBody) : Prop where
  stopped : (p.engine g).state = .stopped
  stopPoint : (p.engine g).stopPoint = some (i, fraction)
  noOutcome : (p.engine g).pendingOutcome = none
  job : (p.engine g).job = some j
  line : ∃ u v feed len q, p.record j i = .line u v feed len ∧ p.transform g u v = some q ∧ body = .line q feed len
  pierceBehind : ∃ u v current, p.record j (i + 1) = .pierce u v current

/-- Presence records do not matter to it. -/
theorem StoppedOnLine.congr {p q : Part} {g : Gantry} {j : JobNo} {i fraction : Nat} {body : SegmentBody}
    (h : StoppedOnLine p g j i fraction body) (hjst : q.jst = p.jst) (hbds : q.bds = p.bds) : StoppedOnLine q g j i fraction body := by
  have he : q.engine g = p.engine g := by unfold Part.engine; rw [hbds]
  obtain ⟨hs, hp, ho, hj, hline, hnext⟩ := h
  exact ⟨he ▸ hs, he ▸ hp, he ▸ ho, he ▸ hj, by simpa only [record_congr hjst, transform_congr hbds] using hline,
    by simpa only [record_congr hjst] using hnext⟩

/-- A clearance run with all it causes. -/
theorem settle_clearance (n : Nat) {p : Part} {g : Gantry} {j : JobNo} {i fraction : Nat} {body : SegmentBody}
    (h : StoppedOnLine p g j i fraction body) (ha : p.agenda = []) (rest : List Task) :
    settle (n + 2) (p.emits (.clearance g :: rest)) = settle n ((cutResumed p g i fraction body).emits rest) := by
  obtain ⟨u, v, feed, len, q, hr, ht, rfl⟩ := h.line
  obtain ⟨u', v', current, hnext⟩ := h.pierceBehind
  have hclearance : p.micro (.clearance g) = (cutResumed p g i fraction (.line q feed len)).emit (.stream g) :=
    clearance_line h.stopped h.stopPoint h.noOutcome h.job hr ht
  have hstream : (cutResumed p g i fraction (.line q feed len)).micro (.stream g) = cutResumed p g i fraction (.line q feed len) :=
    stream_before_pierce (j := j) (i := i + 1) (by simp) (by simp [h.job]) (by simp)
      ((record_congr (cutResumed_jst ..) j (i + 1)).trans hnext) (by simp)
  rw [settle_emits _ _ _ ha, hclearance, emit_emits, settle_emits _ _ _ (by simpa using ha), hstream]

/-- A change of presences whose one clearance lets a STOPPED cut resume. -/
theorem changePresences_settled_clearance {p : Part} {c : Crane} {b : Bed} {g : Gantry} {j : JobNo} {i fraction : Nat}
    {body : SegmentBody} {f : Bed → Presence} (h : StoppedOnLine p g j i fraction body) (ha : p.agenda = [])
    (hothers : ∀ a : Bed, (p.bed a).waiting = [] ∧ (a ≠ b → (p.bed a).owner = none)) (hg : (p.bed b).owner = some g)
    (hbefore : (p.presence c b).state ≠ .absent) (hafter : (f b).state = .absent)
    (hother : (p.presence (otherCrane c) b).state = .absent) :
    (p.changePresences c f).settled = cutResumed (p.putPresences c f) g i fraction body := by
  have hsignal : bedSignals p c f b = [.clearance g] := by
    rw [bedSignals, hafter]
    exact presenceSignal_clearance hg hbefore hother
  obtain ⟨before, after, hbeforeOffers, hafterOffers, hlen, hsignals⟩ := presenceSignals_one_owner (fun a => (hothers a).2) hsignal
  have hcleared : StoppedOnLine (p.putPresences c f) g j i fraction body := h.congr (putPresences_jst ..) (putPresences_bds ..)
  have hw : NobodyWaits (p.putPresences c f) := fun a => by rw [putPresences_bed]; exact (hothers a).1
  have hw' : NobodyWaits (cutResumed (p.putPresences c f) g i fraction body) := fun a => by rw [cutResumed_bed]; exact hw a
  have hac : (p.putPresences c f).agenda = [] := by simpa using ha
  have har : (cutResumed (p.putPresences c f) g i fraction body).agenda = [] := by simpa using ha
  rw [changePresences_eq, hsignals]
  refine Part.settled_eq (0 + after.length + 2 + before.length) (by omega) ?_ har
  rw [settle_emits_idle _ _ hac (hbeforeOffers.idle hw), settle_clearance _ hcleared hac,
    settle_emits_idle_all _ har (hafterOffers.idle hw')]

/-- A crane left of a bed, its margin included, is outside it (R22). -/
theorem insideBed_left {margin : Nat} {q : Rect} {x : Int} (h : x < q.xLo - margin) (y : Int) : insideBed margin q x y = false :=
  insideBed_outside fun hin => absurd hin.1 (by omega)

/-- The sixteenth report outside a bed whose cut is STOPPED, by the one crane that was over it. -/
theorem exec_position_clearance {s : State} (h : Live s.part) {c : Crane} {due : Bool} {w : Nat} {b : Bed} {g : Gantry} {j : JobNo}
    {i fraction : Nat} {body : SegmentBody} {x y : Int} {hookLow loaded : Bool}
    (hf : s.part.flp.inFlight = some ⟨⟨craneStation c, .poll due⟩, w⟩) (hl : (s.part.station (craneStation c)).lost = false)
    (ht : (s.part.crane c).state = .tracking) (ho : s.part.orderQueue c = []) (hg : (s.part.bed b).owner = some g)
    (hothers : ∀ a : Bed, (s.part.bed a).waiting = [] ∧ (a ≠ b → (s.part.bed a).owner = none))
    (hpres : (s.part.presence c b).state ≠ .absent) (hother : (s.part.presence (otherCrane c) b).state = .absent)
    (hmoved : (movedPresence s.part c (clampedReport s.part x y hookLow loaded) b).state = .absent)
    (hstop : StoppedOnLine s.part g j i fraction body) :
    let taken := s.part.answerTaken (craneStation c)
    let r := clampedReport s.part x y hookLow loaded
    exec (.cranePollAnswer (stationAddress (craneStation c)) x y hookLow loaded none) s
      = .next { s with part := cutResumed ((reportStored taken c r).putPresences c (movedPresence taken c r)) g i fraction body } := by
  intro taken r
  have hstored : StoppedOnLine (reportStored taken c r) g j i fraction body :=
    hstop.congr ((reportStored_jst ..).trans (answerTaken_jst ..)) ((reportStored_bds ..).trans (answerTaken_bds ..))
  have hsettled := changePresences_settled_clearance (c := c) (f := movedPresence taken c r) hstored (by exact h.2.1) hothers hg hpres
    hmoved hother
  rw [exec_position h hf hl, takePosition_tracking (by exact ht), takeReport_unordered (by exact ho),
    show clampedReport (s.part.answerTaken (craneStation c)) x y hookLow loaded = r from rfl, hsettled,
    Part.transmit_rest (by exact h.2.2)]

/-- Settles O45: the count by its closed form, and the clearance by its hand-offs. -/
theorem sixteenReportsOutsideEndAPresence : Obligations.SixteenReportsOutsideEndAPresence := by
  refine ⟨fun count k => ?_, ?_⟩
  · rw [repeat_move_outside]
    by_cases h0 : k = 0
    · simp [h0]
    · by_cases h15 : k ≤ 15
      · simp [h0, h15]; omega
      · simp [h0, h15]; omega
  · intro s c g b j rect point w i fraction u v feed len u' v' current due x y hookLow loaded h hf ht hl ho hb hrect hg hothers hpres
      hother hleft hs hp hout hj hr hq hnext
    have hmoved : movedPresence s.part c (clampedReport s.part x y hookLow loaded) b = { state := .absent, count := 0 } := by
      rw [movedPresence_loaded hb hrect, insideBed_left (by exact hleft), hpres]
      rfl
    have hstop : StoppedOnLine s.part g j i fraction (.line point feed len) :=
      ⟨hs, hp, hout, hj, ⟨u, v, feed, len, point, hr, hq, rfl⟩, u', v', current, hnext⟩
    refine ⟨_, exec_position_clearance h hf hl ht ho hg hothers (by simp [hpres]) hother (by rw [hmoved]) hstop, ?_, fun a => ?_, ?_,
      fun k hk => ?_, ?_⟩
    · rw [cutResumed_presence, putPresences_presence, if_pos rfl]; exact hmoved
    · simp
    · simp
    · simp [hk.symm]
    · simp

end Sys2Proof.Machine.CranePresence
end

section
/-! PROOFS. The plate-to-hall transform (R59, R60): the cosine term, the two rounded products, and the range of each. -/

namespace Sys2Proof.Machine.PlateToHall

/-! ## The cosine term (R59) -/

theorem square_nonneg (k : Int) : 0 ≤ k * k := by
  rw [← Int.natAbs_mul_self]
  exact Int.natCast_nonneg _

theorem square_le {k : Int} {a : Nat} (h : k.natAbs ≤ a) : k * k ≤ (a * a : Nat) := by
  rw [← Int.natAbs_mul_self]
  exact Int.ofNat_le.2 (Nat.mul_le_mul h h)

theorem cosTerm_neg (k : Int) : cosTerm (-k) = cosTerm k := by rw [cosTerm, cosTerm, Int.neg_mul_neg]

theorem cosTerm_le_one (k : Int) : cosTerm k ≤ 1048576 :=
  Int.sub_le_self _ (Int.ediv_nonneg (square_nonneg k) (by decide))

/-- A skew whose square is below the divisor loses nothing. -/
theorem cosTerm_of_small {k : Int} (h : k.natAbs ≤ 1448) : cosTerm k = 1048576 := by
  have hsquare := square_le h
  have hnonneg := square_nonneg k
  unfold cosTerm
  omega

theorem cosTerm_at_limit : cosTerm 36600 = 1047938 := by decide

/-- The cosine term is least at the greatest skew. -/
theorem cosTerm_ge {k : Int} (h : k.natAbs ≤ 36600) : 1047938 ≤ cosTerm k := by
  have hsquare := square_le h
  unfold cosTerm
  omega

/-- The square of a skew lies above its tangent at the limit, 36,600. -/
theorem tangent_le_square (k : Int) : 73200 * (k.natAbs : Int) - 36600 * 36600 ≤ k * k := by
  have hdistance := square_nonneg (k.natAbs - 36600)
  have hsquare : (k.natAbs : Int) * k.natAbs = k * k := Int.natAbs_mul_self' k
  rw [Int.sub_mul, Int.mul_sub, hsquare] at hdistance
  omega

/-- What a smaller skew adds to the cosine term, against what it takes from the sine term: both numerators are greatest at the limit. -/
theorem cosTerm_excess_le {k : Int} (h : k.natAbs ≤ 36600) :
    250000 * (cosTerm k - 1047938) ≤ 60000 * (36600 - (k.natAbs : Int)) := by
  have htangent := tangent_le_square k
  unfold cosTerm
  by_cases hnear : 36599 ≤ k.natAbs
  · have hloss : 638 ≤ k * k / 2097152 := by omega
    omega
  · omega

/-! ## The numerators (R60) -/

/-- A product with a plate coordinate is greatest in size at the coordinate's limit. -/
theorem coordinate_mul_bounds {u limit : Nat} (h : u ≤ limit) (a : Int) :
    -(limit * (a.natAbs : Int)) ≤ (u : Int) * a ∧ (u : Int) * a ≤ limit * (a.natAbs : Int) := by
  have hsize : ((u : Int) * a).natAbs ≤ limit * a.natAbs := by
    rw [Int.natAbs_mul, Int.natAbs_natCast]
    exact Nat.mul_le_mul_right _ h
  have hcast : ((limit * a.natAbs : Nat) : Int) = limit * (a.natAbs : Int) := Int.natCast_mul _ _
  omega

/-- A plate coordinate times the cosine term, which is positive. -/
theorem cosine_product_bounds {u limit : Nat} (h : u ≤ limit) {k : Int} (hk : k.natAbs ≤ 36600) :
    0 ≤ (u : Int) * cosTerm k ∧ (u : Int) * cosTerm k ≤ limit * cosTerm k := by
  have hpos : 0 ≤ cosTerm k := Int.le_trans (by decide) (cosTerm_ge hk)
  exact ⟨Int.mul_nonneg (Int.natCast_nonneg u) hpos, Int.mul_le_mul_of_nonneg_right (Int.ofNat_le.2 h) hpos⟩

/-- The numerator along the length of the hall. -/
theorem lengthNumerator_bounds {u v : Nat} (hu : u ≤ 250000) (hv : v ≤ 60000) {k : Int} (hk : k.natAbs ≤ 36600) :
    -2196000000 ≤ (u : Int) * cosTerm k - v * k ∧ (u : Int) * cosTerm k - v * k ≤ 264180500000 := by
  obtain ⟨hlow, hhigh⟩ := cosine_product_bounds hu hk
  obtain ⟨hsineLow, hsineHigh⟩ := coordinate_mul_bounds hv k
  have hexcess := cosTerm_excess_le hk
  omega

/-- The numerator along the width of the hall. -/
theorem widthNumerator_bounds {u v : Nat} (hu : u ≤ 250000) (hv : v ≤ 60000) {k : Int} (hk : k.natAbs ≤ 36600) :
    -9150000000 ≤ (v : Int) * cosTerm k + u * k ∧ (v : Int) * cosTerm k + u * k ≤ 72026280000 := by
  obtain ⟨hlow, hhigh⟩ := cosine_product_bounds hv hk
  obtain ⟨hsineLow, hsineHigh⟩ := coordinate_mul_bounds hu k
  have hexcess := cosTerm_excess_le hk
  have hleast := cosTerm_ge hk
  omega

/-! ## The rounded terms (R60) -/

theorem roundTerm_mono {m n : Int} (h : m ≤ n) : roundTerm m ≤ roundTerm n :=
  Int.ediv_le_ediv (by decide) (Int.add_le_add_right h _)

theorem hallPoint_x_sub (r : Registration) (u v : Nat) : (hallPoint r u v).x - r.ox = roundTerm (u * cosTerm r.k - v * r.k) := by
  dsimp only [hallPoint]
  omega

theorem hallPoint_y_sub (r : Registration) (u v : Nat) : (hallPoint r u v).y - r.oy = roundTerm (v * cosTerm r.k + u * r.k) := by
  dsimp only [hallPoint]
  omega

/-- Settles O53: the ranges of the numerators, and a rounding that keeps their order. -/
theorem theTransformStaysInItsRanges : Obligations.TheTransformStaysInItsRanges := by
  refine ⟨fun r u v => rfl, fun k => ⟨cosTerm_neg k, cosTerm_le_one k, fun hlow hhigh => cosTerm_of_small (by omega)⟩,
    cosTerm_at_limit, fun r u v hu hv hlow hhigh => ?_⟩
  have hk : r.k.natAbs ≤ 36600 := by omega
  obtain ⟨hxLow, hxHigh⟩ := lengthNumerator_bounds hu hv hk
  obtain ⟨hyLow, hyHigh⟩ := widthNumerator_bounds hu hv hk
  rw [hallPoint_x_sub, hallPoint_y_sub]
  exact ⟨cosTerm_ge hk, hxLow, hxHigh, hyLow, hyHigh, roundTerm_mono hxLow, roundTerm_mono hxHigh, roundTerm_mono hyLow,
    roundTerm_mono hyHigh⟩

end Sys2Proof.Machine.PlateToHall
end

section
/-! PROOFS. The events of a gantry (R171): how an answer with one event is taken, and what each event leaves in the states of its rule. -/

namespace Sys2Proof.Machine.GantryEvents

open CranePresence

/-! ## An answer with one event -/

theorem stationGantry?_gantry (g : Gantry) : stationGantry? (gantryStation g) = some g := fin?_val g

/-- An event list that answers a poll ends the transaction, and its events are handed on in order (R171). -/
theorem answered_gantryPoll {p : Part} {g : Gantry} {due : Bool} {w : Nat}
    (hf : p.flp.inFlight = some ⟨⟨gantryStation g, .poll due⟩, w⟩) (hl : (p.station (gantryStation g)).lost = false)
    {es : List GantryEvent} (hes : es.length ≤ 4) (kind : Nat) (payload : List Byte) :
    p.answered ⟨stationAddress (gantryStation g), kind, payload⟩ (.events es)
      = (p.answerTaken (gantryStation g)).emits (es.map (.gantryEvent g)) := by
  have hfits : answerFits (gantryStation g) (.poll due) (.events es) = true := by
    simp [answerFits, stationGantry?_gantry, FloorFrame.isPoll, FloorFrame.kind, hes]
  have hfound : ({ p with flp := { p.flp with inFlight := none } } : Part).foundStation (gantryStation g)
      = p.answerTaken (gantryStation g) := foundStation_present hl
  unfold Part.answered
  simp only [hf, ne_eq, not_true_eq_false, if_false, hfits, if_true, hfound]
  simp only [Part.deliver, stationGantry?_gantry]

/-- The part `q` is what one event leaves with the `n` hand-offs it causes. -/
abbrev EventLeaves (p : Part) (g : Gantry) (event : GantryEvent) (n : Nat) (q : Part) : Prop :=
  settle n (p.gantryEvent g event) = q ∧ q.agenda = []

/-- An answer with one event leaves what the event leaves, the line free and the misses cleared. -/
theorem leaves_event {s : State} (h : Live s.part) {g : Gantry} {due : Bool} {w : Nat}
    (hf : s.part.flp.inFlight = some ⟨⟨gantryStation g, .poll due⟩, w⟩) (hl : (s.part.station (gantryStation g)).lost = false)
    {event : GantryEvent} {n : Nat} (hn : n ≤ 999) {q : Part}
    (hq : EventLeaves (s.part.answerTaken (gantryStation g)) g event n q) :
    Leaves (.gantryPollAnswer (stationAddress (gantryStation g)) [event]) s q.transmit := by
  obtain ⟨hrun, hdone⟩ := hq
  refine (happens_live h (fun p => p.answered ⟨stationAddress (gantryStation g), 0x84, eventBytes [event]⟩ (.events [event]))).trans ?_
  have hsettled : ((s.part.answerTaken (gantryStation g)).emits [.gantryEvent g event]).settled = q :=
    Part.settled_eq (n + 1) (by omega) ((settle_emit n _ (by exact h.2.1)).trans hrun) hdone
  rw [answered_gantryPoll hf hl (by simp), List.map_singleton, hsettled]

/-- An event that leaves the Office Port alone. -/
theorem leaves_event_silent {s : State} (h : Live s.part) {g : Gantry} {due : Bool} {w : Nat}
    (hf : s.part.flp.inFlight = some ⟨⟨gantryStation g, .poll due⟩, w⟩) (hl : (s.part.station (gantryStation g)).lost = false)
    {event : GantryEvent} {n : Nat} (hn : n ≤ 999) {q : Part}
    (hq : EventLeaves (s.part.answerTaken (gantryStation g)) g event n q) (ho : q.ofp = s.part.ofp) :
    Leaves (.gantryPollAnswer (stationAddress (gantryStation g)) [event]) s q := by
  have := leaves_event h hf hl hn hq
  rwa [Part.transmit_rest (by rw [ho]; exact h.2.2)] at this

/-! ## The engine record -/

theorem setEngine_engine_same (p : Part) (g : Gantry) (e : Engine) : (p.setEngine g e).engine g = e := by simp

theorem setEngine_setEngine (p : Part) (g : Gantry) (a b : Engine) : (p.setEngine g a).setEngine g b = p.setEngine g b := by
  simp [Part.setEngine, put_put]

/-! ## REGISTERED (R56) -/

/-- While every slot holds a text the sequencer neither sends one nor ends its phase (R109, R113). -/
theorem markPump_full {p : Part} {g : Gantry} (h : ∀ x : Fin 4, look (p.marks g).slots x ≠ none) : p.markPump g = p := by
  have hnoSlot : (p.marks g).freeSlot = none := by
    rw [MarkContext.freeSlot, List.find?_eq_none]
    intro x _
    simpa using h x
  have hbusy : (p.marks g).allFree = false := by
    have hmem : look (p.marks g).slots 0 ∈ (p.marks g).slots.toList := by simp [look]
    rw [MarkContext.allFree, List.all_eq_false]
    exact ⟨_, hmem, by simpa using h 0⟩
  unfold Part.markPump
  dsimp only
  rw [hnoSlot, hbusy]
  split
  · cases (p.marks g).sendList <;> simp
  · rfl

/-- A registration whose origin lies in the hall and whose skew is within its limit (R56). -/
structure RegistrationFits (p : Part) (ox oy k : Int) : Prop where
  lengthLow : 0 ≤ ox
  lengthHigh : ox ≤ p.hmp.hallLength
  widthLow : 0 ≤ oy
  widthHigh : oy ≤ p.hmp.hallWidth
  skewLow : -36600 ≤ k
  skewHigh : k ≤ 36600

theorem registered_fits {p : Part} {g : Gantry} {j : JobNo} {b : Bed} {plate : Tag} {ox oy k : Int}
    (hs : (p.engine g).state = .register) (hj : (p.engine g).job = some j) (hb : p.jobBed j = some b)
    (hp : (p.bed b).plate = some plate) (hfit : RegistrationFits p ox oy k) :
    p.gantryEvent g (.registered ox oy k)
      = ((p.setRegistration g (some ⟨b, plate, ox, oy, k⟩)).setEngine g { p.engine g with state := .mark }).emit (.markPump g) := by
  obtain ⟨hx0, hx1, hy0, hy1, hk0, hk1⟩ := hfit
  simp [Part.gantryEvent, Part.registered, hs, hj, hb, hp, skewLimit, hx0, hx1, hy0, hy1, hk0, hk1]

/-- With every slot full no text is sent behind it. -/
theorem registered_leaves {p : Part} (ha : p.agenda = []) {g : Gantry} {j : JobNo} {b : Bed} {plate : Tag} {ox oy k : Int}
    (hs : (p.engine g).state = .register) (hj : (p.engine g).job = some j) (hb : p.jobBed j = some b)
    (hp : (p.bed b).plate = some plate) (hfit : RegistrationFits p ox oy k) (hfull : ∀ x : Fin 4, look (p.marks g).slots x ≠ none) :
    EventLeaves p g (.registered ox oy k) 1
      ((p.setRegistration g (some ⟨b, plate, ox, oy, k⟩)).setEngine g { p.engine g with state := .mark }) := by
  refine ⟨?_, ha⟩
  rw [registered_fits hs hj hb hp hfit, settle_emit 0 _ (by exact ha)]
  exact markPump_full (by exact hfull)

/-! ## SEGMENTS_DONE (R85, R99) -/

/-- The engine with these declared lengths paid into the accumulator and the backlog, and burned. -/
def payLengths (period : Nat) (e : Engine) (lengths : List Nat) : Engine :=
  let paid := lengths.foldl (fun a len => addLength period a.1 a.2 len) (e.accumulator, e.backlog)
  { e with
    accumulator := paid.1, backlog := paid.2,
    counters := { e.counters with
      burnedLength := lengths.foldl (fun a len => min 4294967295 (a + len)) e.counters.burnedLength } }

theorem payLengths_cons (period : Nat) (e : Engine) (len : Nat) (lengths : List Nat) :
    payLengths period e (len :: lengths) = payLengths period (payLengths period e [len]) lengths := rfl

/-- A RAPID adds nothing. -/
theorem countSegment_uncut {r : Record} (h : cutLength r = none) (period : Nat) (e : Engine) : e.countSegment period r = e := by
  simp [Engine.countSegment, h]

theorem countSegment_cut {r : Record} {len : Nat} (h : cutLength r = some len) (period : Nat) (e : Engine) :
    e.countSegment period r = payLengths period e [len] := by
  simp [Engine.countSegment, h, payLengths, saturate]

/-- Finished segments are counted by the declared lengths among them. -/
theorem foldl_countSegment (period : Nat) (rs : List Record) (e : Engine) :
    rs.foldl (Engine.countSegment period) e = payLengths period e (rs.filterMap cutLength) := by
  induction rs generalizing e with
  | nil => rfl
  | cons r rs ih =>
      rw [List.foldl_cons, ih]
      cases hr : cutLength r with
      | none => rw [countSegment_uncut hr, List.filterMap_cons_none hr]
      | some len => rw [countSegment_cut hr, List.filterMap_cons_some hr, ← payLengths_cons]

/-- A STOPPED engine counts the oldest segments, and requests nothing. -/
theorem segmentsDone_stopped {p : Part} {g : Gantry} {j : JobNo} {n : Nat} (hs : (p.engine g).state = .stopped)
    (hj : (p.engine g).job = some j) (h1 : 1 ≤ n) (hn : n ≤ (p.engine g).outstanding.length) :
    let e := p.engine g
    let done := e.outstanding.take n
    p.gantryEvent g (.segmentsDone n)
      = (p.withdraw (carriesRecord g done)).setEngine g
          { payLengths ((p.params g).period * 10) e ((done.map (p.record j)).filterMap cutLength) with
            outstanding := e.outstanding.drop n, credit := e.credit + n,
            chainDone := e.chainDone || done.any (fun i => e.chainPierce.any (fun c => c < i)) } := by
  dsimp only
  have hfew : ¬ (p.engine g).outstanding.length < n := Nat.not_lt.2 hn
  have hsome : ¬ n = 0 := Nat.ne_of_gt h1
  have hstays : ∀ (period : Nat) (lengths : List Nat), (payLengths period (p.engine g) lengths).state ≠ .cut := by
    simp [payLengths, hs]
  simp only [Part.gantryEvent, Part.segmentsDone, hs, or_true, if_true, hsome, hfew, if_false, hj, foldl_countSegment, hstays]
  rfl

/-! ## PIERCE_OK and PIERCE_FAILED (R82 to R84) -/

/-- The part with the next record's SEGMENT requested (R84). -/
def segmentSent (p : Part) (g : Gantry) (i : Nat) (body : SegmentBody) : Part :=
  (p.setEngine g
    { p.engine g with
      credit := (p.engine g).credit - 1, outstanding := (p.engine g).outstanding ++ [i], nextRecord := some (i + 1) }).request
    (gantryStation g) (.segment i body)

/-- An engine in CUT with a credit left sends its next LINE (R84). -/
theorem stream_line {p : Part} {g : Gantry} {j : JobNo} {i u v feed len : Nat} {point : Point} (hs : (p.engine g).state = .cut)
    (hj : (p.engine g).job = some j) (hn : (p.engine g).nextRecord = some i) (hr : p.record j i = .line u v feed len)
    (ht : p.transform g u v = some point) (hc : 0 < (p.engine g).credit) :
    p.stream g = (segmentSent p g i (.line point feed len)).emit (.stream g) := by
  unfold Part.stream
  simp only [hs, hj, hn, hr, hc, if_true, Part.sendSegment, segmentFor_line ht, segmentSent]

theorem segmentSent_setEngine (p : Part) (g : Gantry) (e : Engine) (i : Nat) (body : SegmentBody) :
    segmentSent (p.setEngine g e) g i body
      = (p.setEngine g
          { e with credit := e.credit - 1, outstanding := e.outstanding ++ [i], nextRecord := some (i + 1) }).request
          (gantryStation g) (.segment i body) := by
  rw [segmentSent, setEngine_engine_same, setEngine_setEngine]

/-- The engine with the pierce of record `i` made, in CUT before the record behind it (R83). -/
def pierceCut (e : Engine) (i : Nat) : Engine := { e.pierceMade with state := .cut, nextRecord := some (i + 1) }

theorem pierceOk_pierce {p : Part} {g : Gantry} {i : Nat} (hs : (p.engine g).state = .pierce) (hp : (p.engine g).chainPierce = some i) :
    p.gantryEvent g .pierceOk = (p.setEngine g (pierceCut (p.engine g) i)).emit (.stream g) := by
  simp [Part.gantryEvent, Part.pierceOk, hs, hp, pierceCut]

/-- A LINE behind the pierce, and another PIERCE behind the LINE: the LINE alone is sent. -/
theorem pierceOk_leaves {p : Part} (ha : p.agenda = []) {g : Gantry} {j : JobNo} {i u v feed len u' v' current : Nat} {point : Point}
    (hs : (p.engine g).state = .pierce) (hj : (p.engine g).job = some j) (hp : (p.engine g).chainPierce = some i)
    (ho : (p.engine g).outstanding = []) (hc : 0 < (p.engine g).credit) (hline : p.record j (i + 1) = .line u v feed len)
    (ht : p.transform g u v = some point) (hpierce : p.record j (i + 2) = .pierce u' v' current) :
    EventLeaves p g .pierceOk 2
      ((p.setEngine g
        { p.engine g with
          state := .cut, retryCount := 0,
          counters := { (p.engine g).counters with pierces := min 65535 ((p.engine g).counters.pierces + 1) },
          credit := (p.engine g).credit - 1, outstanding := [i + 1], nextRecord := some (i + 2) }).request
        (gantryStation g) (.segment (i + 1) (.line point feed len))) := by
  have hcut := setEngine_engine_same p g (pierceCut (p.engine g) i)
  have hsend : (p.setEngine g (pierceCut (p.engine g) i)).micro (.stream g) = _ :=
    stream_line (by rw [hcut]; rfl) (by rw [hcut]; exact hj) (by rw [hcut]; rfl) (by exact hline) (by exact ht) (by rw [hcut]; exact hc)
  rw [segmentSent_setEngine] at hsend
  refine ⟨?_, ha⟩
  rw [pierceOk_pierce hs hp, settle_emit 1 _ (by exact ha), hsend, settle_emit 0 _ (by exact ha)]
  refine (stream_before_pierce (j := j) (i := i + 2) (by simp [pierceCut]) (by simpa [pierceCut, Engine.pierceMade] using hj) (by simp)
    (by exact hpierce) (by simp)).trans ?_
  rw [show (pierceCut (p.engine g) i).outstanding = [] from ho]
  rfl

/-- A PIERCE inside the window, no reference urgent: its frame is requested (R82). -/
theorem preparePierce_inside {p : Part} {g : Gantry} {j : JobNo} {i u v current : Nat} {point : Point}
    (hj : (p.engine g).job = some j) (hn : (p.engine g).nextRecord = some i) (hr : p.record j i = .pierce u v current)
    (ht : p.transform g u v = some point) (hb : (p.engine g).backlog < 3) :
    p.preparePierce g
      = (p.setEngine g { p.engine g with state := .pierce, chainPierce := some i, chainDone := false }).request (gantryStation g)
          (.pierce i point current) := by
  simp [Part.preparePierce, hj, hn, hr, ht, Nat.ne_of_lt hb]

/-- The engine with one more pierce retry counted (R83). -/
def retryCounted (e : Engine) : Engine :=
  { e with
    retryCount := e.retryCount + 1,
    counters := { e.counters with pierceRetries := min 65535 (e.counters.pierceRetries + 1) } }

theorem pierceFailed_retry {p : Part} {g : Gantry} (hs : (p.engine g).state = .pierce)
    (hretry : (p.engine g).retryCount < (p.params g).retryLimit) :
    p.gantryEvent g .pierceFailed = (p.setEngine g (retryCounted (p.engine g))).emit (.preparePierce g) := by
  simp [Part.gantryEvent, Part.pierceFailed, hs, hretry, retryCounted, saturate]

theorem pierceFailed_leaves {p : Part} (ha : p.agenda = []) {g : Gantry} {j : JobNo} {i u v current : Nat} {point : Point}
    (hs : (p.engine g).state = .pierce) (hj : (p.engine g).job = some j) (hn : (p.engine g).nextRecord = some i)
    (hr : p.record j i = .pierce u v current) (ht : p.transform g u v = some point) (hb : (p.engine g).backlog < 3)
    (hretry : (p.engine g).retryCount < (p.params g).retryLimit) :
    EventLeaves p g .pierceFailed 1
      ((p.setEngine g { retryCounted (p.engine g) with chainPierce := some i, chainDone := false }).request (gantryStation g)
        (.pierce i point current)) := by
  have hcounted := setEngine_engine_same p g (retryCounted (p.engine g))
  have hprepare : (p.setEngine g (retryCounted (p.engine g))).micro (.preparePierce g) = _ :=
    preparePierce_inside (by rw [hcounted]; exact hj) (by rw [hcounted]; exact hn) (by exact hr) (by exact ht) (by rw [hcounted]; exact hb)
  refine ⟨?_, ha⟩
  rw [pierceFailed_retry hs hretry, settle_emit 0 _ (by exact ha), hprepare, hcounted, setEngine_setEngine, ← hs]
  rfl

/-! ## STOPPED_AT (R89) -/

theorem stopAccepted_of {e : Engine} {i : Nat} (h : (e.chainPierce = some i ∧ e.chainDone = false) ∨ e.outstanding.head? = some i) :
    e.stopAccepted i = true := by
  rcases h with ⟨hp, hd⟩ | ho
  · simp [Engine.stopAccepted, hp, hd]
  · simp [Engine.stopAccepted, ho]

/-- Under a crane the stop point stands, and the engine waits. -/
theorem stoppedAt_leaves {p : Part} (ha : p.agenda = []) {g : Gantry} {j : JobNo} {b : Bed} {i fraction : Nat}
    (hs : (p.engine g).state = .stopped) (hj : (p.engine g).job = some j) (hp : (p.engine g).stopPoint = none)
    (ho : (p.engine g).pendingOutcome = none) (hi : (p.engine g).stopAccepted i = true) (hb : p.jobBed j = some b)
    (hclear : p.bedClear b = false) :
    EventLeaves p g (.stoppedAt i fraction) 0
      (p.setEngine g
        { p.engine g with
          stopPoint := some (i, fraction), outstanding := [], credit := (p.params g).depth, nextRecord := some (i + 1) }) := by
  refine ⟨?_, ha⟩
  have hcrane : ((p.engine g).job.bind p.jobBed).any p.bedClear = false := by
    rw [hj, Option.bind_some, hb]
    exact hclear
  simp only [settle, Part.gantryEvent, Part.stoppedAt, hs, hp, ho, hi, and_self, if_true]
  exact if_neg (Bool.eq_false_iff.1 hcrane)

/-! ## MARK_DONE without a text (R112) -/

theorem markDone_noText {p : Part} {g : Gantry} {slot : Nat} (hs : (p.engine g).state ≠ .off)
    (h : ∀ x : Fin 4, x.val = slot → look (p.marks g).slots x = none) (ok : Bool) :
    p.gantryEvent g (.markDone slot ok) = p.raiseUnderflow g := by
  simp only [Part.gantryEvent, Part.markDone, hs, if_false]
  by_cases hslot : slot < 4
  · have hindex : fin? 4 slot = some ⟨slot, hslot⟩ := fin?_val ⟨slot, hslot⟩
    simp only [hindex, h ⟨slot, hslot⟩ rfl]
  · simp only [fin?_none (Nat.not_lt.1 hslot)]

/-! ## FAULT without a job (R91, R95) -/

/-- The part with an IDLE engine without a bed request sent to FAULT, its frames withdrawn, before the notice. -/
def idleFaulted (p : Part) (g : Gantry) : Part :=
  (p.withdraw (isDispatch g)).setEngine g { p.engine g with state := .fault, idleReference := false, refReturn := none }

/-- Away from IDLE an engine reports its stored held reasons alone (R67). -/
theorem reportedHeld_away {p : Part} {g : Gantry} (h : (p.engine g).state ≠ .idle) :
    p.reportedHeld g = { stored := (p.engine g).held } := by
  unfold Part.reportedHeld
  dsimp only
  split
  · rename_i hidle _ _
    exact absurd hidle h
  · rfl

theorem fault_idle_leaves {p : Part} (ha : p.agenda = []) {g : Gantry} (hs : (p.engine g).state = .idle) (hj : (p.engine g).job = none)
    (hb : (p.engine g).bedRequest = .none) (code : Nat) :
    EventLeaves p g (.fault code) 1
      ((idleFaulted p g).notify
        (.gantryState g .fault { stored := (p.engine g).held } none (p.engine g).counters.lastPart .machine (some code) none)) := by
  have hevent : p.gantryEvent g (.fault code) = p.emit (.machine g code true) := by
    simp [Part.gantryEvent, Part.faultEvent, hs]
  have hmachine : p.micro (.machine g code true) = (p.withdraw (isDispatch g)).faultWithoutJob g .machine (some code) := by
    simp [Part.micro, Part.machine, hs, hj]
  have hask : (p.withdraw (isDispatch g)).releaseAsk g = p.withdraw (isDispatch g) := by
    simp [Part.releaseAsk, hb]
  have hengine : (idleFaulted p g).engine g = { p.engine g with state := .fault, idleReference := false, refReturn := none } :=
    setEngine_engine_same ..
  have hnotice : (idleFaulted p g).stateNotice g .machine (some code) none
      = .gantryState g .fault { stored := (p.engine g).held } none (p.engine g).counters.lastPart .machine (some code) none := by
    unfold Part.stateNotice
    rw [reportedHeld_away (by simp [hengine]), hengine]
    simp only [hj]
  refine ⟨?_, ha⟩
  rw [hevent, settle_emit 0 _ ha, hmachine, ← hnotice]
  unfold Part.faultWithoutJob
  rw [hask]
  rfl

/-! ## The statement on the events -/

/-- Settles O46: each event by what it leaves, taken whole. -/
theorem segmentsDoneAreCounted : Obligations.SegmentsDoneAreCounted := by
  intro s g w h hf hl
  refine ⟨fun j b plate ox oy k hs hj hb hp hx0 hx1 hy0 hy1 hk0 hk1 hfull => ?registered, fun j n hs hj h1 hn => ?segmentsDone,
    fun j i u v feed len u' v' current point hs hj hp ho hc hline ht hpierce => ?pierceOk,
    fun j i u v current point hs hj hn hr ht hb hretry => ?pierceFailed, fun j b i fraction hs hj hp ho hi hb hclear => ?stoppedAt,
    fun slot ok hs hfree => ?markDone, fun code hs hj hb => ?fault⟩
  case registered =>
    exact leaves_event_silent h hf hl (n := 1) (by decide)
      (registered_leaves (by exact h.2.1) hs hj (by exact hb) (by exact hp) ⟨hx0, hx1, hy0, hy1, hk0, hk1⟩ (by exact hfull)) rfl
  case segmentsDone =>
    exact leaves_event_silent h hf hl (n := 0) (by decide) ⟨segmentsDone_stopped hs hj h1 hn, h.2.1⟩ rfl
  case pierceOk =>
    exact leaves_event_silent h hf hl (n := 2) (by decide)
      (pierceOk_leaves (by exact h.2.1) hs hj hp ho hc (by exact hline) (by exact ht) (by exact hpierce)) rfl
  case pierceFailed =>
    exact leaves_event_silent h hf hl (n := 1) (by decide)
      (pierceFailed_leaves (by exact h.2.1) hs hj hn (by exact hr) (by exact ht) hb hretry) rfl
  case stoppedAt =>
    exact leaves_event_silent h hf hl (n := 0) (by decide)
      (stoppedAt_leaves (by exact h.2.1) hs hj hp ho (stopAccepted_of hi) (by exact hb) (by exact hclear)) rfl
  case markDone =>
    exact leaves_event_silent h hf hl (n := 0) (by decide)
      ⟨markDone_noText (p := s.part.answerTaken (gantryStation g)) hs hfree ok, h.2.1⟩ rfl
  case fault =>
    have hleaves := leaves_event h hf hl (by decide)
      (fault_idle_leaves (p := s.part.answerTaken (gantryStation g)) h.2.1 hs hj hb code)
    rwa [Part.notify_transmit (by exact h.2.2)] at hleaves

end Sys2Proof.Machine.GantryEvents
end

section
/-! PROOFS. The dispatch engine between two jobs (chapter 5): the requests on a gantry, the answers to its INIT frame, the loss of its
station; and with them what an ACK, a REFUSE and a third miss do at the Floor Port. -/

namespace Sys2Proof.Machine.EngineDispatch

open CranePresence GantryEvents

/-! ## A request on a gantry -/

theorem indexed_val {k : Nat} (p : Part) (i : Fin k) (body : Fin k → Answered) : indexed p i.val body = body i := by
  simp only [indexed, fin?_val]

theorem firstFailure_ok {checks : List (Bool × Reason)} (h : ∀ c ∈ checks, c.1 = true) : firstFailure checks = .ok := by
  induction checks with
  | nil => rfl
  | cons c rest ih =>
      rw [firstFailure, if_pos (h c (by simp))]
      exact ih fun d hd => h d (by simp [hd])

theorem checked_passed {checks : List (Bool × Reason)} (h : ∀ c ∈ checks, c.1 = true) (p : Part) (body : Answered) :
    checked p checks body = body := by
  simp only [checked, firstFailure_ok h]

/-! ## GANTRY ENABLE (R69, R98, R119) -/

/-- The part with the engine in INIT and the records of its gantry new, before its INIT frame is requested. -/
def engineStarted (p : Part) (g : Gantry) : Part :=
  (((p.setRegistration g none).emptyMarks g true).setStation (gantryStation g) {}).setEngine g
    { p.engine g with
      state := .init, retryCount := 0, backlog := 3, accumulator := 0, idleReference := false, refReturn := none,
      held := { office := (p.engine g).held.office } }

theorem gantryEnable_accepted {p : Part} {g : Gantry} (hs : (p.engine g).state = .off ∨ (p.engine g).state = .fault)
    (hl : (p.params g).loaded = true) :
    gantryEnable p g = accept ((engineStarted p g).request (gantryStation g) (p.params g).initFrame) := by
  unfold gantryEnable
  rw [indexed_val, checked_passed (by simpa [hl] using hs)]
  rfl

/-- Settles O13: the accepted request hands nothing on. -/
theorem gantryEnableStartsTheEngine : Obligations.GantryEnableStartsTheEngine := by
  intro s tag g hready hs hl
  exact answers_plain hready rfl (gantryEnable_accepted (p := s.part.taking) hs hl)
    ((Part.request_agenda ..).trans hready.1.2.1) rfl

/-! ## GANTRY DISABLE (R72, R119) -/

/-- Without a bed request nothing is released. -/
theorem releaseAsk_none {p : Part} {g : Gantry} (h : (p.engine g).bedRequest = .none) : p.releaseAsk g = p := by
  simp [Part.releaseAsk, h]

theorem gantryDisable_jobless {p : Part} {g : Gantry} (hs : (p.engine g).state ≠ .off) (hb : (p.engine g).state.mayBurn = false)
    (hj : (p.engine g).job = none) (ha : (p.engine g).bedRequest = .none) :
    gantryDisable p g = accept ((p.withdraw (isDispatch g)).emit (.finishDisable g)) := by
  unfold gantryDisable
  rw [indexed_val, checked_passed (by simpa using hs)]
  simp only [hb, hj, Option.isSome_none, Bool.false_eq_true, if_false]
  rw [releaseAsk_none (by exact ha)]

/-- Settles O14: the one hand-off is the engine's own entry into OFF. -/
theorem gantryDisableWithoutAJob : Obligations.GantryDisableWithoutAJob := by
  intro s tag g hready hs hb hj ha
  refine answers_settled hready rfl (gantryDisable_jobless (p := s.part.taking) hs hb hj ha) ?_ rfl rfl
  exact Part.settled_eq 1 (by decide) (settle_emit 0 _ hready.1.2.1) hready.1.2.1

/-! ## GANTRY HOLD and GANTRY RELEASE (R71) -/

/-- The part with the held reason OFFICE of a gantry set or cleared. -/
def officeHeld (p : Part) (g : Gantry) (held : Bool) : Part :=
  p.setEngine g { p.engine g with held := { (p.engine g).held with office := held } }

theorem gantryHold_unasked {p : Part} {g : Gantry} (h : ¬ ((p.engine g).state = .idle ∧ (p.engine g).bedRequest = .waiting)) :
    gantryHold p g = accept (officeHeld p g true) := by
  unfold gantryHold
  rw [indexed_val]
  simp only [if_neg h]
  rfl

theorem releaseAsk_waiting {p : Part} {g : Gantry} (h : (p.engine g).bedRequest = .waiting) :
    p.releaseAsk g = (p.setEngine g { p.engine g with bedRequest := .none }).withdrawBed (.gantry g) := by
  simp [Part.releaseAsk, h]

theorem gantryHold_waiting {p : Part} {g : Gantry} (hs : (p.engine g).state = .idle) (hb : (p.engine g).bedRequest = .waiting) :
    gantryHold p g
      = accept ((p.setEngine g
          { p.engine g with bedRequest := .none, held := { (p.engine g).held with office := true } }).withdrawBed (.gantry g)) := by
  have hasked : ((p.setEngine g { p.engine g with bedRequest := .none }).withdrawBed (.gantry g)).engine g
      = { p.engine g with bedRequest := .none } := setEngine_engine_same p g _
  unfold gantryHold
  rw [indexed_val]
  dsimp only
  rw [if_pos ⟨hs, hb⟩, releaseAsk_waiting hb, hasked]
  exact congrArg (fun q : Part => accept (q.withdrawBed (.gantry g))) (setEngine_setEngine p g _ _)

/-- A RELEASE of a gantry that is not held changes nothing (log 33). -/
theorem gantryRelease_unheld {p : Part} {g : Gantry} (h : (p.engine g).held.office = false) : gantryRelease p g = accept p := by
  unfold gantryRelease
  rw [indexed_val]
  simp only [h, if_true]

/-- Away from IDLE and HELD a RELEASE has nothing to take up. -/
theorem gantryRelease_busy {p : Part} {g : Gantry} (h : (p.engine g).held.office = true) (hidle : (p.engine g).state ≠ .idle)
    (hheld : (p.engine g).state ≠ .held) : gantryRelease p g = accept (officeHeld p g false) := by
  unfold gantryRelease
  rw [indexed_val]
  dsimp only
  rw [if_neg (by simp [h])]
  split
  · exact absurd ‹_› hidle
  · exact absurd ‹_› hheld
  · rfl

/-- Settles O15: none of the four requests hands anything on. -/
theorem holdAndReleaseMoveTheOfficeReason : Obligations.HoldAndReleaseMoveTheOfficeReason := by
  refine fun s tag g => ⟨fun hready h => ?unasked, fun hready hs hb => ?waiting, fun hready h => ?unheld, fun hready h hi hh => ?busy⟩
  case unasked => exact answers_plain hready rfl (gantryHold_unasked (p := s.part.taking) h) hready.1.2.1 rfl
  case waiting => exact answers_plain hready rfl (gantryHold_waiting (p := s.part.taking) hs hb) hready.1.2.1 rfl
  case unheld => exact answers_plain hready rfl (gantryRelease_unheld (p := s.part.taking) h) hready.1.2.1 rfl
  case busy => exact answers_plain hready rfl (gantryRelease_busy (p := s.part.taking) h hi hh) hready.1.2.1 rfl

/-! ## LOAD ENTRY of table GANTRY (R68, R98, R107) -/

/-- A window of a gantry's parameter entry lies in the hall (R68). -/
structure WindowFits (w : Rect) : Prop where
  xLow : 0 ≤ w.xLo
  xOrder : w.xLo ≤ w.xHi
  xHigh : w.xHi ≤ 3000000
  yLow : 0 ≤ w.yLo
  yOrder : w.yLo ≤ w.yHi
  yHigh : w.yHi ≤ 600000

/-- The window's own checks in the order of the request. -/
theorem WindowFits.checks {w : Rect} (h : WindowFits w) :
    (withinInt 0 3000000 w.xLo && withinInt 0 3000000 w.xHi && w.xLo ≤ w.xHi && withinInt 0 600000 w.yLo
      && withinInt 0 600000 w.yHi && w.yLo ≤ w.yHi) = true := by
  obtain ⟨hx0, hx, hx1, hy0, hy, hy1⟩ := h
  simp only [withinInt, Bool.and_eq_true, decide_eq_true_eq]
  omega

/-- The part with a parameter entry loaded, the accumulator at 0 and the notice mode handed on. -/
def gantryLoaded (p : Part) (g : Gantry) (entry : GantryParams) : Part :=
  ((p.setParams g entry).setEngine g { p.engine g with accumulator := 0 }).setMarks g { p.marks g with mode := entry.mode }

theorem loadGantry_accepted {p : Part} {g : Gantry} {reach period retryLimit auto mode depth : Nat} {w : Rect} {notices : NoticeMode}
    (hs : (p.engine g).state = .off) (hw : WindowFits w) (hp : period = 0 ∨ (500 ≤ period ∧ period ≤ 99999)) (hr : retryLimit ≤ 7)
    (ha : auto ≤ 1) (hm : noticeMode? mode = some notices) (h8 : 8 ≤ depth) (h64 : depth ≤ 64) (hq : p.queue g = []) :
    loadGantry p g 1 reach w period retryLimit auto mode depth
      = accept (gantryLoaded p g
          { loaded := true, reach := reachOf reach, window := w, period := period, retryLimit := retryLimit,
            autoRelease := auto == 1, mode := notices, depth := depth }) := by
  have hperiod : (period == 0 || within 500 99999 period) = true := by simpa [within] using hp
  have hreach : p.queueInReach g (reachOf reach) = true := by simp [Part.queueInReach, hq]
  unfold loadGantry
  rw [indexed_val]
  dsimp only
  rw [hw.checks, hperiod, checked_passed (by simp [isYesNo, within, hs, hr, ha, hm, h8, h64, hreach])]
  simp only [hm]
  rfl

/-- Settles O29: every check holds, and the accepted load hands nothing on. -/
theorem loadGantrySetsTheParameters : Obligations.LoadGantrySetsTheParameters := by
  intro s tag reach period retryLimit auto mode depth g w notices hready hs hx0 hx hx1 hy0 hy hy1 hp hr ha hm h8 h64 hq
  exact answers_plain hready rfl
    (loadGantry_accepted (p := s.part.taking) hs ⟨hx0, hx, hx1, hy0, hy, hy1⟩ hp hr ha hm h8 h64 hq) hready.1.2.1 rfl

/-! ## ACK and REFUSE of a command frame (R163, R164, R172) -/

/-- A command frame: neither a poll nor a passthrough. -/
def IsCommand (f : FloorFrame) : Prop := f.isPoll = false ∧ ∀ cls payload, f ≠ .pass cls payload

theorem answered_command {p : Part} {x : Station} {f : FloorFrame} {w : Nat} (hf : p.flp.inFlight = some ⟨⟨x, f⟩, w⟩)
    (hl : (p.station x).lost = false) (hc : IsCommand f) {a : FloorAnswer} (ha : a = .ack ∨ ∃ code, a = .refuse code) (kind : Nat)
    (payload : List Byte) :
    p.answered ⟨stationAddress x, kind, payload⟩ a = (p.answerTaken x).deliver x f a := by
  have hfits : answerFits x f a = true := by
    rcases ha with rfl | ⟨code, rfl⟩ <;> simp [answerFits, hc.1]
  have hfound : ({ p with flp := { p.flp with inFlight := none } } : Part).foundStation x = p.answerTaken x := foundStation_present hl
  unfold Part.answered
  simp only [hf, ne_eq, not_true_eq_false, if_false, hfound]
  split
  · exact absurd rfl (hc.2 _ _)
  · exact if_pos hfits

/-- An ACK of a command frame leaves what its requester makes of it. -/
theorem leaves_ack {s : State} (h : Live s.part) {x : Station} {f : FloorFrame} {w : Nat}
    (hf : s.part.flp.inFlight = some ⟨⟨x, f⟩, w⟩) (hl : (s.part.station x).lost = false) (hc : IsCommand f) {q : Part}
    (hq : ((s.part.answerTaken x).deliverAck x f).settled = q) (ho : q.ofp = s.part.ofp) :
    Leaves (.answerAck (stationAddress x)) s q := by
  refine happens_quiet (f := fun p => p.answered ⟨stationAddress x, 0x81, []⟩ .ack) h ?_ ho
  rw [answered_command hf hl hc (.inl rfl)]
  exact hq

/-- A REFUSE of a command frame leaves what its requester makes of it, with the notice it gives. -/
theorem leaves_refuse {s : State} (h : Live s.part) {x : Station} {f : FloorFrame} {w code : Nat}
    (hf : s.part.flp.inFlight = some ⟨⟨x, f⟩, w⟩) (hl : (s.part.station x).lost = false) (hc : IsCommand f) {q : Part} {n : Notice}
    (hq : ((s.part.answerTaken x).deliverRefuse x f code).settled = q.notify n) (ho : q.ofp = s.part.ofp) :
    Leaves (.answerRefuse (stationAddress x) code) s { q with ofp := s.part.ofp.given n } := by
  have hsettled : (s.part.answered ⟨stationAddress x, 0x82, byte1 code⟩ (.refuse code)).settled = q.notify n := by
    rw [answered_command hf hl hc (.inr ⟨code, rfl⟩)]
    exact hq
  refine (happens_live h (fun p => p.answered ⟨stationAddress x, 0x82, byte1 code⟩ (.refuse code))).trans ?_
  rw [hsettled, Part.notify_transmit (by rw [ho]; exact h.2.2), ho]

theorem isCommand_order (n : OrderNo) (x y : PlaceOnFloor) (l : Load) : IsCommand (.order n x y l) := ⟨rfl, by simp⟩

theorem isCommand_init (window : Rect) (retry depth period : Nat) (mode : NoticeMode) :
    IsCommand (.init window retry depth period mode) := ⟨rfl, by simp⟩

/-! ## ACK of ORDER and of INIT (R70, R104, R130) -/

theorem orderAck_sent {p : Part} {n : OrderNo} {o : Order} (hn : p.order n = some o) (hs : o.state = .sent) :
    p.orderAck n = p.setOrder n (some { o with answered := true }) := by
  simp [Part.orderAck, hn, hs]

theorem deliverAck_init {p : Part} {g : Gantry} (hs : (p.engine g).state = .init) (window : Rect) (retry depth period : Nat)
    (mode : NoticeMode) :
    p.deliverAck (gantryStation g) (.init window retry depth period mode)
      = (p.setEngine g { p.engine g with state := .idle }).emit (.takeUp g) := by
  simp only [Part.deliverAck, stationGantry?_gantry, Part.gantryAck, hs]

/-- An IDLE engine with an empty queue looks for an idle reference (R74). -/
theorem takeUp_empty {p : Part} {g : Gantry} (hs : (p.engine g).state = .idle) (hb : (p.engine g).bedRequest = .none)
    (hq : p.queue g = []) : p.takeUp g = p.emit (.idleReference g) := by
  have hhead : p.headBed g = none := by simp [Part.headBed, hq]
  simp [Part.takeUp, hs, hb, hhead]

/-- With an empty queue and a backlog an IDLE engine requests its REFERENCE (R104). -/
theorem idleReference_empty {p : Part} {g : Gantry} (hs : (p.engine g).state = .idle) (hb : (p.engine g).bedRequest = .none)
    (hi : (p.engine g).idleReference = false) (hback : 0 < (p.engine g).backlog) (hq : p.queue g = [])
    (hp : p.referencePending g = false) :
    p.idleReference g = (p.setEngine g { p.engine g with idleReference := true }).request (gantryStation g) .reference := by
  have hpending : (p.setEngine g { p.engine g with idleReference := true }).referencePending g = false := hp
  unfold Part.idleReference Part.requestReference
  dsimp only
  rw [if_pos ⟨hs, hi, hback, by simp [hb], by simp [hq]⟩, if_neg (Bool.eq_false_iff.1 hpending)]

/-- An engine that becomes IDLE with a backlog and nothing to start: its REFERENCE is requested at once (R70, R104). -/
theorem takeUp_settled_reference {p : Part} {g : Gantry} (ha : p.agenda = []) (hs : (p.engine g).state = .idle)
    (hb : (p.engine g).bedRequest = .none) (hi : (p.engine g).idleReference = false) (hback : 0 < (p.engine g).backlog)
    (hq : p.queue g = []) (hp : p.referencePending g = false) :
    (p.emit (.takeUp g)).settled
      = (p.setEngine g { p.engine g with idleReference := true }).request (gantryStation g) .reference := by
  have htake : p.micro (.takeUp g) = p.emit (.idleReference g) := takeUp_empty hs hb hq
  have hreference : p.micro (.idleReference g) = _ := idleReference_empty hs hb hi hback hq hp
  refine Part.settled_eq 2 (by decide) ?_ (by simpa using ha)
  rw [settle_emit 1 _ ha, htake, settle_emit 0 _ ha, hreference]
  rfl

/-- Settles O48: the order takes its answer, and the engine in IDLE runs into its idle reference. -/
theorem answerAckReachesTheRequester : Obligations.AnswerAckReachesTheRequester := by
  refine ⟨fun s c n o w x y l h hf hl hn ho => ?_, fun s g w retry depth period window mode h hf hl hs hb hi hback hq hp => ?_⟩
  · refine leaves_ack h hf hl (isCommand_order n x y l) ?_ rfl
    have hack := orderAck_sent (p := s.part.answerTaken (craneStation c)) hn ho
    exact (congrArg Part.settled hack).trans (Part.settled_nil h.2.1)
  · let idle := (s.part.answerTaken (gantryStation g)).setEngine g { s.part.engine g with state := .idle }
    have hidle : idle.engine g = { s.part.engine g with state := .idle } := setEngine_engine_same ..
    have hreference := takeUp_settled_reference (p := idle) h.2.1 (by rw [hidle]) (by rw [hidle]; exact hb) (by rw [hidle]; exact hi)
      (by rw [hidle]; exact hback) hq hp
    rw [hidle, setEngine_setEngine] at hreference
    refine leaves_ack h hf hl (isCommand_init window retry depth period mode) ?_ rfl
    rw [deliverAck_init (by exact hs)]
    exact hreference

/-! ## An engine without a bed request in FAULT (R91, R92, R95) -/

/-- The part with an engine that holds and asks for no bed sent to FAULT, before the notice. -/
def engineFaulted (p : Part) (g : Gantry) : Part :=
  p.setEngine g { p.engine g with state := .fault, idleReference := false, refReturn := none }

/-- The notice of an engine in FAULT: its stored held reasons alone, and its job if it has one. -/
def faultNotice (p : Part) (g : Gantry) (cause : StateCause) (code : Option Nat) : Notice :=
  .gantryState g .fault { stored := (p.engine g).held } (p.engine g).job (p.engine g).counters.lastPart cause code none

theorem stateNotice_faulted (p : Part) (g : Gantry) (cause : StateCause) (code : Option Nat) :
    (engineFaulted p g).stateNotice g cause code none = faultNotice p g cause code := by
  have hengine : (engineFaulted p g).engine g = { p.engine g with state := .fault, idleReference := false, refReturn := none } :=
    setEngine_engine_same ..
  unfold Part.stateNotice
  rw [reportedHeld_away (by simp [hengine]), hengine]
  rfl

theorem faultWithoutJob_unasked {p : Part} {g : Gantry} (h : (p.engine g).bedRequest = .none) (cause : StateCause)
    (code : Option Nat) : p.faultWithoutJob g cause code = (engineFaulted p g).notify (faultNotice p g cause code) := by
  unfold Part.faultWithoutJob
  rw [releaseAsk_none h, ← stateNotice_faulted]
  rfl

/-! ## REFUSE of INIT (R70, R95) -/

theorem deliverRefuse_init {p : Part} {g : Gantry} (hs : (p.engine g).state = .init) (window : Rect) (retry depth period : Nat)
    (mode : NoticeMode) (code : Nat) :
    p.deliverRefuse (gantryStation g) (.init window retry depth period mode) code = p.faultWithoutJob g .init (some code) := by
  simp only [Part.deliverRefuse, stationGantry?_gantry, Part.gantryRefuse, hs, if_true]

/-- Settles O49: the refused engine enters FAULT by itself, and its notice is all that is handed on. -/
theorem aRefusedInitIsAFault : Obligations.ARefusedInitIsAFault := by
  intro s g w code retry depth period window mode h hf hl hs hb
  refine leaves_refuse h hf hl (isCommand_init window retry depth period mode)
    (q := engineFaulted (s.part.answerTaken (gantryStation g)) g) ?_ rfl
  rw [deliverRefuse_init (by exact hs), faultWithoutJob_unasked (by exact hb)]
  exact Part.settled_nil h.2.1

/-! ## The third miss of a poll (R164, R165) -/

/-- How the expiry of an answer window counts (R163). -/
def expiryCause (begun : Bool) : MissCause := if begun then .badAnswer else .silent

/-- The part with a station LOST by the third miss in a row, the frames pending for it withdrawn, before anybody is told. -/
def stationLost (p : Part) (x : Station) (cause : MissCause) : Part :=
  ({ p with flp := { p.flp with inFlight := none, silence := true } }.setStation x ⟨3, true, some cause⟩).withdraw (lostWith x)

/-- The notice that a station was lost by a missed poll. -/
def pollLostNotice (x : Station) (cause : MissCause) : Notice := .stationLost (stationAddress x) (some cause) 0x01

/-- The frames withdrawn at a loss, the missed poll among them (R165). -/
def goneFrames (p : Part) (x : Station) : List FloorRequest := ⟨x, .poll false⟩ :: p.flp.pending.filter (lostWith x)

theorem windowExpiry_thirdMiss {p : Part} {x : Station} {w : Nat} (hf : p.flp.inFlight = some ⟨⟨x, .poll false⟩, w⟩)
    (he : p.eligible x = true) (hl : (p.station x).lost = false) (hm : (p.station x).misses = 2) (begun : Bool) :
    p.windowExpiry begun
      = ((stationLost p x (expiryCause begun)).dropMarks x (goneFrames p x)).emits
          (lossTask x ++ [.notice (pollLostNotice x (expiryCause begun))]) := by
  let ended : Part := { p with flp := { p.flp with inFlight := none, silence := true } }
  have hl' : (ended.station x).lost = false := hl
  have hm' : (ended.station x).misses = 2 := hm
  have he' : ended.eligible x = true := he
  have hmiss : p.windowExpiry begun = ended.countMiss ⟨x, .poll false⟩ (expiryCause begun) := by
    simp only [Part.windowExpiry, hf, Part.miss, ended] at he' ⊢
    rw [if_neg (by simp [he'])]
    rfl
  rw [hmiss, Part.countMiss]
  simp only [hl', hm', Bool.false_eq_true, if_false, Nat.lt_irrefl]
  rfl

/-! ### A crane that is not TRACKING -/

theorem eligible_crane (p : Part) (c : Crane) : p.eligible (craneStation c) = (p.crane c).installed := by
  simp only [Part.eligible, stationGantry?_crane, stationCrane?_crane]

theorem lossTask_crane (c : Crane) : lossTask (craneStation c) = [.craneStationLost c] := by
  simp only [lossTask, stationGantry?_crane, stationCrane?_crane]

theorem dropMarks_crane (p : Part) (c : Crane) (rs : List FloorRequest) : p.dropMarks (craneStation c) rs = p := by
  simp only [Part.dropMarks, stationGantry?_crane]

/-- A crane that is not TRACKING is not lost again. -/
theorem loseCrane_untracked {p : Part} {c : Crane} (h : (p.crane c).state ≠ .tracking) (cause : LossCause) :
    p.loseCrane c cause = p := if_neg h

theorem cranePoll_thirdMiss_settled {p : Part} (ha : p.agenda = []) {c : Crane} {w : Nat}
    (hf : p.flp.inFlight = some ⟨⟨craneStation c, .poll false⟩, w⟩) (hi : (p.crane c).installed = true)
    (ht : (p.crane c).state ≠ .tracking) (hl : (p.station (craneStation c)).lost = false)
    (hm : (p.station (craneStation c)).misses = 2) (begun : Bool) :
    (p.windowExpiry begun).settled
      = (stationLost p (craneStation c) (expiryCause begun)).notify (pollLostNotice (craneStation c) (expiryCause begun)) := by
  let lost := stationLost p (craneStation c) (expiryCause begun)
  have hcrane : lost.micro (.craneStationLost c) = lost := loseCrane_untracked (by exact ht) .station
  rw [windowExpiry_thirdMiss hf ((eligible_crane p c).trans hi) hl hm, lossTask_crane, dropMarks_crane]
  refine Part.settled_eq 2 (by decide) ?_ (by exact ha)
  rw [List.singleton_append, settle_emits 1 _ _ (by exact ha), hcrane, settle_emits 0 _ _ (by exact ha), Part.emits_nil]
  rfl

/-! ### An IDLE gantry -/

theorem eligible_gantry (p : Part) (g : Gantry) : p.eligible (gantryStation g) = ((p.engine g).state != .off) := by
  simp only [Part.eligible, stationGantry?_gantry]

theorem lossTask_gantry (g : Gantry) : lossTask (gantryStation g) = [.engineLost g] := by
  simp only [lossTask, stationGantry?_gantry]

/-- Slots freed change the slots alone. -/
theorem freeSlots_eq (m : MarkContext) (xs : List (Fin 4)) : m.freeSlots xs = { m with slots := (m.freeSlots xs).slots } := by
  induction xs generalizing m with
  | nil => rfl
  | cons x xs ih => exact ih (m.free x)

theorem dropMarks_gantry (p : Part) (g : Gantry) (rs : List FloorRequest) :
    p.dropMarks (gantryStation g) rs
      = p.setMarks g { p.marks g with slots := ((p.marks g).freeSlots (markSlotsOf rs)).slots } := by
  rw [← freeSlots_eq]
  simp only [Part.dropMarks, stationGantry?_gantry]

theorem engineLost_idle {p : Part} {g : Gantry} (hs : (p.engine g).state = .idle) (hj : (p.engine g).job = none)
    (hb : (p.engine g).bedRequest = .none) : p.engineLost g = (engineFaulted p g).notify (faultNotice p g .link none) := by
  rw [← faultWithoutJob_unasked hb]
  simp [Part.engineLost, hs, hj]

/-- The loss told to an IDLE engine, and then the notice of the station. -/
theorem settle_engineLost_idle (n : Nat) {p : Part} (ha : p.agenda = []) {g : Gantry} (hs : (p.engine g).state = .idle)
    (hj : (p.engine g).job = none) (hb : (p.engine g).bedRequest = .none) (x : Notice) :
    settle (n + 2) (p.emits [.engineLost g, .notice x])
      = settle n (((engineFaulted p g).notify (faultNotice p g .link none)).notify x) := by
  have hfault : p.micro (.engineLost g) = (engineFaulted p g).notify (faultNotice p g .link none) := engineLost_idle hs hj hb
  rw [settle_emits _ _ _ ha, hfault, settle_emits _ _ _ (by exact ha), Part.emits_nil]
  rfl

/-- The part with the station of a gantry LOST and the slots of its withdrawn texts free (R110, R165). -/
def gantryStationLost (p : Part) (g : Gantry) (cause : MissCause) : Part :=
  (stationLost p (gantryStation g) cause).setMarks g
    { p.marks g with slots := ((p.marks g).freeSlots (markSlotsOf (goneFrames p (gantryStation g)))).slots }

theorem gantryPoll_thirdMiss_settled {p : Part} (ha : p.agenda = []) {g : Gantry} {w : Nat}
    (hf : p.flp.inFlight = some ⟨⟨gantryStation g, .poll false⟩, w⟩) (hs : (p.engine g).state = .idle) (hj : (p.engine g).job = none)
    (hb : (p.engine g).bedRequest = .none) (hl : (p.station (gantryStation g)).lost = false)
    (hm : (p.station (gantryStation g)).misses = 2) (begun : Bool) :
    (p.windowExpiry begun).settled
      = ((engineFaulted (gantryStationLost p g (expiryCause begun)) g).notify (faultNotice p g .link none)).notify
          (pollLostNotice (gantryStation g) (expiryCause begun)) := by
  rw [windowExpiry_thirdMiss hf (by simp [eligible_gantry, hs]) hl hm, lossTask_gantry, dropMarks_gantry]
  exact Part.settled_eq 2 (by decide) (settle_engineLost_idle 0 (p := gantryStationLost p g (expiryCause begun)) ha hs hj hb _) ha

/-! ### The slots of the withdrawn texts (R110) -/

theorem look_freeSlots (m : MarkContext) (xs : List (Fin 4)) (x : Fin 4) :
    look (m.freeSlots xs).slots x = if x ∈ xs then none else look m.slots x := by
  induction xs generalizing m with
  | nil => simp [MarkContext.freeSlots]
  | cons y ys ih =>
      refine (ih (m.free y)).trans ?_
      rw [MarkContext.free, look_put]
      by_cases hy : y = x <;> by_cases hx : x ∈ ys <;> simp [hx, hy, Ne.symm]

theorem mem_markSlotsOf (x : Fin 4) (rs : List FloorRequest) :
    x ∈ markSlotsOf rs ↔ ∃ r ∈ rs, ∃ q text, r.frame = .markText x q text := by
  rw [markSlotsOf, List.mem_filterMap]
  refine exists_congr fun r => and_congr_right fun _ => ?_
  cases r.frame <;> simp [eq_comm]

/-- The slots of the frames withdrawn at the loss of a gantry are those of its pending texts. -/
theorem mem_goneSlots (p : Part) (g : Gantry) (x : Fin 4) :
    x ∈ markSlotsOf (goneFrames p (gantryStation g)) ↔ ∃ q text, ⟨gantryStation g, .markText x q text⟩ ∈ p.flp.pending := by
  rw [mem_markSlotsOf]
  constructor
  · rintro ⟨⟨y, f⟩, hr, q, text, rfl⟩
    obtain ⟨hmem, hlost⟩ : _ ∧ lostWith (gantryStation g) _ = true := by simpa [goneFrames] using hr
    have hy : y = gantryStation g := by simpa [lostWith, FloorFrame.cls] using hlost
    exact ⟨q, text, hy ▸ hmem⟩
  · rintro ⟨q, text, hmem⟩
    exact ⟨⟨gantryStation g, .markText x q text⟩,
      List.mem_cons_of_mem _ (List.mem_filter.2 ⟨hmem, by simp [lostWith, FloorFrame.cls]⟩), q, text, rfl⟩

/-! ### The statement on the third miss -/

/-- Settles O43: each loss by what its owner is told and does, and the freed slots by their texts. -/
theorem theThirdMissLosesTheStation : Obligations.TheThirdMissLosesTheStation := by
  refine ⟨fun s c w begun h hf hi ht hl hm => ?_, fun s g w begun h hf hs hj hb hl hm => ?_⟩
  · refine (happens_live h (fun p => p.windowExpiry begun)).trans ?_
    rw [cranePoll_thirdMiss_settled h.2.1 hf hi ht hl hm, Part.notify_transmit (by exact h.2.2)]
    rfl
  · let gone := markSlotsOf (goneFrames s.part (gantryStation g))
    refine ⟨((s.part.marks g).freeSlots gone).slots, fun x hx => ?freed, fun x hx => ?kept, ?_⟩
    case freed => rw [look_freeSlots, if_pos ((mem_goneSlots s.part g x).2 hx)]
    case kept => rw [look_freeSlots, if_neg (mt (mem_goneSlots s.part g x).1 (by simpa using hx))]
    refine (happens_live h (fun p => p.windowExpiry begun)).trans ?_
    rw [gantryPoll_thirdMiss_settled h.2.1 hf hs hj hb hl hm, notify_notify_transmit (by exact h.2.2), faultNotice, hj]
    rfl

end Sys2Proof.Machine.EngineDispatch
end

section
/-! PROOFS. Height references (chapter 6): what lengths added one at a time leave of the accumulator and the backlog, and what a
REFERENCE_DONE leaves of an IDLE engine without a job that owes more than one. -/

namespace Sys2Proof.Machine.HeightReference

open CranePresence GantryEvents EngineDispatch

/-! ## Accumulation (R99) -/

theorem addLength_unscheduled (acc backlog len : Nat) : addLength 0 acc backlog len = (acc, backlog) := rfl

theorem addLength_scheduled {q : Nat} (hq : 0 < q) (acc backlog len : Nat) :
    addLength q acc backlog len = ((acc + len) % q, min 3 (backlog + (acc + len) / q)) :=
  if_neg (Nat.ne_of_gt hq)

/-- The periods that a length crosses are those its first part crosses and those the rest crosses from the remainder on. -/
theorem crossings_add {q : Nat} (hq : 0 < q) (x b : Nat) : (x + b) / q = x / q + (x % q + b) / q := by
  calc (x + b) / q = (q * (x / q) + (x % q + b)) / q := by rw [← Nat.add_assoc, Nat.div_add_mod]
    _ = x / q + (x % q + b) / q := Nat.mul_add_div hq _ _

/-- A backlog that stops at 3 stops there whether the crossings come in two parts or at once. -/
theorem backlog_add (backlog m n : Nat) : min 3 (min 3 (backlog + m) + n) = min 3 (backlog + (m + n)) := by omega

theorem addLength_addLength {q : Nat} (hq : 0 < q) (acc backlog a b : Nat) :
    addLength q (addLength q acc backlog a).1 (addLength q acc backlog a).2 b = addLength q acc backlog (a + b) := by
  simp only [addLength_scheduled hq, Nat.mod_add_mod, ← Nat.add_assoc, crossings_add hq (acc + a) b, backlog_add]

/-! ## REFERENCE_DONE in IDLE (R101, R104) -/

/-- The engine with one reference paid. -/
def referencePaid (e : Engine) : Engine := { e with backlog := e.backlog - 1 }

/-- Without a job no counter rises (R101). -/
theorem countReference_unemployed {e : Engine} (h : e.job = none) : e.countReference = referencePaid e := by
  simp [Engine.countReference, referencePaid, h]

/-- A gantry whose REFERENCE has been sent has none to withdraw. -/
theorem withdrawReference_sent {p : Part} {g : Gantry} (h : p.referencePending g = false) : p.withdrawReference g = p := by
  refine withdraw_absent fun r hr => Bool.eq_false_iff.2 fun hreference => ?_
  exact Bool.eq_false_iff.1 h (List.any_eq_true.2 ⟨r, hr, hreference⟩)

theorem afterIdleDone_unasked {p : Part} {g : Gantry} (h : (p.engine g).bedRequest = .none) :
    p.afterIdleDone g = p.emit (.idleReference g) := by
  simp [Part.afterIdleDone, h]

/-- The idle reference that was sent is over, and the next is considered. -/
theorem referenceDone_idle {p : Part} {g : Gantry} (hs : (p.engine g).state = .idle) (hj : (p.engine g).job = none)
    (hb : (p.engine g).bedRequest = .none) (hp : p.referencePending g = false) :
    p.gantryEvent g .referenceDone
      = (p.setEngine g { referencePaid (p.engine g) with idleReference := false }).emit (.idleReference g) := by
  have hstate : (referencePaid (p.engine g)).state = .idle := hs
  have hp' : (p.setEngine g (referencePaid (p.engine g))).referencePending g = false := hp
  simp only [Part.gantryEvent, Part.referenceDone, countReference_unemployed hj, hstate, hp', reduceCtorEq, Bool.false_eq_true,
    false_and, and_false, if_false, withdrawReference_sent hp', setEngine_setEngine]
  exact afterIdleDone_unasked (by rw [setEngine_engine_same]; exact hb)

/-- With more than one reference owed, the next is requested, and the engine stays in its idle reference. -/
theorem referenceDone_idle_leaves {p : Part} (ha : p.agenda = []) {g : Gantry} (hs : (p.engine g).state = .idle)
    (hj : (p.engine g).job = none) (hb : (p.engine g).bedRequest = .none) (hi : (p.engine g).idleReference = true)
    (hp : p.referencePending g = false) (hback : 2 ≤ (p.engine g).backlog) (hq : p.queue g = []) :
    EventLeaves p g .referenceDone 1
      ((p.setEngine g (referencePaid (p.engine g))).request (gantryStation g) .reference) := by
  let ended : Engine := { referencePaid (p.engine g) with idleReference := false }
  have hended : (p.setEngine g ended).engine g = ended := setEngine_engine_same p g ended
  have hstill : { ended with idleReference := true } = referencePaid (p.engine g) := by
    simp only [ended, referencePaid, ← hi]
  have howes : 0 < ended.backlog := Nat.sub_pos_of_lt hback
  have hnext : (p.setEngine g ended).micro (.idleReference g) = _ :=
    idleReference_empty (by rw [hended]; exact hs) (by rw [hended]; exact hb) (by rw [hended]) (by rw [hended]; exact howes) hq hp
  refine ⟨?_, ha⟩
  rw [referenceDone_idle hs hj hb hp, settle_emit 0 _ (by exact ha), hnext, hended, setEngine_setEngine, hstill]
  rfl

/-! ## The statement on lengths and references -/

/-- Settles O47: the crossings of a sum are those of its parts, and the idle engine pays one reference and requests the next. -/
theorem lengthsAddUp : Obligations.LengthsAddUp := by
  refine ⟨fun q acc backlog a b hq _ _ => ?_, fun s g w h hf hl hs hj hb hi hp hback hqueue => ?_⟩
  · refine ⟨addLength_addLength hq acc backlog a b, ?_, ?_, ?_, addLength_unscheduled acc backlog a⟩ <;>
      rw [addLength_scheduled hq]
    exact Nat.mod_lt _ hq
  · exact leaves_event_silent h hf hl (n := 1) (by decide)
      (referenceDone_idle_leaves (by exact h.2.1) hs hj hb hi hp hback hqueue) rfl

end Sys2Proof.Machine.HeightReference
end

section
/-! PROOFS. Part marking (chapter 7): what a PART DECISION makes of a failed mark while its engine is not held at that part. -/

namespace Sys2Proof.Machine.PartMarking

open EngineDispatch

/-! ## The mark list -/

theorem setMarks_marks_same (p : Part) (g : Gantry) (m : MarkContext) : (p.setMarks g m).marks g = m := by simp

theorem setMarks_setMarks (p : Part) (g : Gantry) (a b : MarkContext) : (p.setMarks g a).setMarks g b = p.setMarks g b := by
  simp only [Part.setMarks, put_put]

theorem setStatus_eq_map (m : MarkContext) (part : Nat) (status : MarkStatus) :
    m.setStatus part status
      = { m with marks := m.marks.map (fun e => if e.index = part then { e with status := status } else e) } := by
  simp only [MarkContext.setStatus, updateWhere, beq_iff_eq]

theorem heldAt_eq_false {p : Part} {g : Gantry} {part : Nat}
    (h : ¬ ((p.engine g).state = .held ∧ (p.engine g).counters.lastPart = part)) : p.heldAt g part = false := by
  simpa [Part.heldAt] using h

/-! ## A decision away from the hold (R115, R116) -/

/-- SKIP PART and CUT UNMARKED change the status alone: the engine does not wait for them. -/
theorem decideStatus_away {p : Part} {g : Gantry} {part : Nat} (h : p.heldAt g part = false) (status : MarkStatus) :
    p.decideStatus g part status = p.setMarks g ((p.marks g).setStatus part status) := by
  simp only [Part.decideStatus, h, Bool.false_eq_true, if_false]

/-- RETRY MARK outside the FIRST phase is kept for the boundary of its part. -/
theorem decideRetry_away {p : Part} {g : Gantry} {part : Nat} (h : p.heldAt g part = false) (hf : (p.marks g).phase ≠ .first) :
    p.decideRetry g part = p.setMarks g ((p.marks g).setStatus part .retry) := by
  simp only [Part.decideRetry, hf, h, Bool.false_eq_true, and_false, if_false]

/-! ## PART DECISION (R115) -/

/-- The status a decision code gives a part whose engine is not held at it; RETRY MARK, when the phase is not FIRST. -/
def Gives (phase : MarkPhase) (decision : Nat) (status : MarkStatus) : Prop :=
  (decision = 0 ∧ status = .skip) ∨ (decision = 1 ∧ status = .unmarked) ∨ (decision = 2 ∧ status = .retry ∧ phase ≠ .first)

theorem Gives.decision_le {phase : MarkPhase} {decision : Nat} {status : MarkStatus} (h : Gives phase decision status) :
    decision ≤ 2 := by
  unfold Gives at h
  omega

/-- The part with one number taken off the list of unresolved failures. -/
def resolved (p : Part) (g : Gantry) (part : Nat) : Part :=
  p.setMarks g { p.marks g with unresolved := (p.marks g).unresolved.filter (· != part) }

/-- The part with a decided failure: off the list of unresolved failures, with the status of the decision. -/
def decided (p : Part) (g : Gantry) (part : Nat) (status : MarkStatus) : Part :=
  p.setMarks g
    { p.marks g with
      unresolved := (p.marks g).unresolved.filter (· != part),
      marks := (p.marks g).marks.map (fun e => if e.index = part then { e with status := status } else e) }

theorem resolved_marks (p : Part) (g : Gantry) (part : Nat) :
    (resolved p g part).marks g = { p.marks g with unresolved := (p.marks g).unresolved.filter (· != part) } :=
  setMarks_marks_same ..

/-- Resolving touches no engine, so an engine held at a part stays so. -/
theorem resolved_heldAt (p : Part) (g : Gantry) (part : Nat) : (resolved p g part).heldAt g part = p.heldAt g part := rfl

theorem setStatus_resolved (p : Part) (g : Gantry) (part : Nat) (status : MarkStatus) :
    (resolved p g part).setMarks g (((resolved p g part).marks g).setStatus part status) = decided p g part status := by
  rw [resolved_marks, setStatus_eq_map, resolved, setMarks_setMarks, decided]

/-- What the code of a decision asks for, done to a part whose list no longer names the failure. -/
def carriedOut (p : Part) (g : Gantry) (part : Nat) : Nat → Part
  | 0 => p.decideStatus g part .skip
  | 1 => p.decideStatus g part .unmarked
  | _ => p.decideRetry g part

theorem carriedOut_away {p : Part} {g : Gantry} {part decision : Nat} {status : MarkStatus}
    (hs : Gives (p.marks g).phase decision status) (hh : p.heldAt g part = false) :
    carriedOut p g part decision = p.setMarks g ((p.marks g).setStatus part status) := by
  obtain ⟨rfl, rfl⟩ | ⟨rfl, rfl⟩ | ⟨rfl, rfl, hphase⟩ := hs
  case inl => exact decideStatus_away hh .skip
  case inr.inl => exact decideStatus_away hh .unmarked
  case inr.inr => exact decideRetry_away hh hphase

/-- An accepted decision: the number leaves the list, and the decision is carried out. -/
theorem partDecision_listed {p : Part} {g : Gantry} {part decision : Nat} (hlo : 1 ≤ part) (hhi : part ≤ 999) (hd : decision ≤ 2)
    (hu : part ∈ (p.marks g).unresolved) :
    partDecision p g part decision = accept (carriedOut (resolved p g part) g part decision) := by
  unfold partDecision
  rw [indexed_val]
  dsimp only
  rw [checked_passed (by simp [within, hlo, hhi, hd, hu])]
  rfl

/-- A part that has no unresolved failure passes the range checks and fails the next one. -/
theorem partDecision_unlisted {p : Part} {g : Gantry} {part decision : Nat} (hlo : 1 ≤ part) (hhi : part ≤ 999) (hd : decision ≤ 2)
    (hu : part ∉ (p.marks g).unresolved) : partDecision p g part decision = refuse p .notFound := by
  unfold partDecision
  rw [indexed_val]
  simp [checked, firstFailure, within, hlo, hhi, hd, hu]

theorem partDecision_away {p : Part} {g : Gantry} {part decision : Nat} {status : MarkStatus} (hlo : 1 ≤ part) (hhi : part ≤ 999)
    (hs : Gives (p.marks g).phase decision status) (hu : part ∈ (p.marks g).unresolved) (hh : p.heldAt g part = false) :
    partDecision p g part decision = accept (decided p g part status) := by
  have hresolved : Gives ((resolved p g part).marks g).phase decision status := by rwa [resolved_marks]
  rw [partDecision_listed hlo hhi hs.decision_le hu, carriedOut_away hresolved ((resolved_heldAt p g part).trans hh),
    setStatus_resolved]

/-- Settles O16: the decision away from the hold, and the part that is not in the list, hand nothing on. -/
theorem partDecisionSettlesAFailedMark : Obligations.PartDecisionSettlesAFailedMark := by
  refine fun s tag part g hlo hhi => ⟨fun decision hd hready hu => ?unlisted, fun decision status hs hready hu hh => ?decided⟩
  case unlisted =>
    exact answers_plain hready rfl (partDecision_unlisted (p := s.part.taking) hlo hhi hd hu) hready.1.2.1 rfl
  case decided =>
    exact answers_plain hready rfl (partDecision_away (p := s.part.taking) hlo hhi hs hu (heldAt_eq_false hh)) hready.1.2.1 rfl

end Sys2Proof.Machine.PartMarking
end

section
/-! PROOFS. The books of orders and remnants: the order records, the order queues, the remnant table and the entry sequence. Only the
Crane Order Unit and the Remnant Stock Unit write them; here stands, block by block, that every other operation leaves them. -/

namespace Sys2Proof.Machine.OrderBooks

/-! ## The books -/

/-- What the invariants on orders and remnants read (R122, R142): the Crane Order Unit, the remnant table, the entry sequence. -/
def books (p : Part) : OrderUnit × List Remnant × Nat := (p.cou, p.rsu.remnants, p.rsu.sequence)

theorem cou_of_books {p q : Part} (h : books q = books p) : q.cou = p.cou := congrArg Prod.fst h

theorem order_of_cou {p q : Part} (h : q.cou = p.cou) (n : OrderNo) : q.order n = p.order n := by unfold Part.order; rw [h]

/-- Where both ways leave the books, the choice between them does. -/
theorem ite_books {c : Prop} [Decidable c] {a b p : Part} (ha : books a = books p) (hb : books b = books p) :
    books (if c then a else b) = books p := by split <;> assumption

/-- Operations that leave the books, carried out over a list, leave them. -/
theorem foldl_books {α : Type} {f : Part → α → Part} (h : ∀ p a, books (f p a) = books p) (l : List α) (p : Part) :
    books (l.foldl f p) = books p := by
  induction l generalizing p with
  | nil => rfl
  | cons a l ih => rw [List.foldl_cons, ih, h]

/-! ## The records of the part

An update of another record leaves the books by definition; here are the updates that the lemmas below name. -/

@[simp] theorem setBed_books (p : Part) (b : Bed) (r : BedRec) : books (p.setBed b r) = books p := rfl
@[simp] theorem setPresence_books (p : Part) (c : Crane) (b : Bed) (r : Presence) : books (p.setPresence c b r) = books p := rfl
@[simp] theorem emit_books (p : Part) (t : Task) : books (p.emit t) = books p := rfl
@[simp] theorem emits_books (p : Part) (ts : List Task) : books (p.emits ts) = books p := rfl
@[simp] theorem request_books (p : Part) (x : Station) (f : FloorFrame) : books (p.request x f) = books p := rfl
@[simp] theorem withdraw_books (p : Part) (what : FloorRequest → Bool) : books (p.withdraw what) = books p := rfl
@[simp] theorem changeSlot_books (p : Part) (k : SlotNo) (f : SlotRec → SlotRec) : books (p.changeSlot k f) = books p := rfl

/-! ## The Hall Map (chapters 1 and 2) -/

@[simp] theorem setContent_books (p : Part) (b : Bed) (plate : Option Tag) (skeleton partlyCut : Bool) :
    books (p.setContent b plate skeleton partlyCut) = books p := by
  unfold Part.setContent; dsimp only; split <;> split <;> rfl

@[simp] theorem placePlate_books (p : Part) (b : Bed) (t : Tag) : books (p.placePlate b t) = books p := setContent_books ..
@[simp] theorem liftPlate_books (p : Part) (b : Bed) : books (p.liftPlate b) = books p := setContent_books ..
@[simp] theorem liftSkeleton_books (p : Part) (b : Bed) : books (p.liftSkeleton b) = books p := setContent_books ..

@[simp] theorem bedJobEnd_books (p : Part) (e : JobEnding) (remnant : Option Nat) : books (p.bedJobEnd e remnant) = books p := by
  unfold Part.bedJobEnd; exact ite_books (setContent_books ..) (ite_books rfl (setContent_books ..))

@[simp] theorem grantBed_books (p : Part) (q : BedRequest) : books (p.grantBed q) = books p := by
  cases q with
  | burn g b => rfl
  | claim n beds => exact foldl_books (fun p b => setBed_books p b _) _ _

@[simp] theorem requestBed_books (p : Part) (q : BedRequest) : books (p.requestBed q).1 = books p := by
  unfold Part.requestBed
  split
  · exact grantBed_books p q
  · exact foldl_books (fun p b => setBed_books p b _) _ _

@[simp] theorem offer_books (p : Part) (b : Bed) : books (p.offer b) = books p := by
  unfold Part.offer
  refine ite_books rfl ?_
  split
  · exact grantBed_books ..
  · rfl

@[simp] theorem putPresences_books (p : Part) (c : Crane) (f : Bed → Presence) : books (p.putPresences c f) = books p :=
  foldl_books (fun p b => setPresence_books p c b _) _ _

@[simp] theorem bedLoadedPresences_books (p : Part) (b : Bed) : books (p.bedLoadedPresences b) = books p :=
  foldl_books (fun p c => setPresence_books p c b _) _ _

@[simp] theorem bedAbsentPresences_books (p : Part) (b : Bed) : books (p.bedAbsentPresences b) = books p :=
  foldl_books (fun p c => setPresence_books p c b _) _ _

@[simp] theorem bedsWarmReset_books (p : Part) (cut : List Bed) : books (p.bedsWarmReset cut) = books p :=
  foldl_books (fun p b => setBed_books p b _) _ _

@[simp] theorem takeReport_books (p : Part) (c : Crane) (r : Report) : books (p.takeReport c r) = books p := by
  unfold Part.takeReport; exact ite_books rfl rfl

@[simp] theorem takePosition_books (p : Part) (c : Crane) (x y : Int) (hookLow loaded : Bool) :
    books (p.takePosition c x y hookLow loaded) = books p := by
  unfold Part.takePosition
  split
  · exact takeReport_books p c _
  · rfl
  · rfl

@[simp] theorem loseCrane_books (p : Part) (c : Crane) (cause : LossCause) : books (p.loseCrane c cause) = books p := by
  unfold Part.loseCrane; exact ite_books rfl rfl

@[simp] theorem cranesWarmReset_books (p : Part) : books p.cranesWarmReset = books p := by
  refine foldl_books (fun p c => ?_) _ _
  exact ite_books rfl rfl

/-! ## The Job Store (chapter 3) -/

@[simp] theorem releaseJob_books (p : Part) (j : JobNo) : books (p.releaseJob j) = books p := rfl

@[simp] theorem writeRecord_books (p : Part) (j : JobNo) (i : Nat) (r : Record) : books (p.writeRecord j i r) = books p := by
  unfold Part.writeRecord; split <;> rfl

@[simp] theorem writeRecords_books (p : Part) (j : JobNo) (i : Nat) (rs : List Record) :
    books (p.writeRecords j i rs) = books p := by
  induction rs generalizing p i with
  | nil => rfl
  | cons r rs ih => rw [Part.writeRecords, ih, writeRecord_books]

theorem popCompletion_books {p q : Part} {j : JobNo} (h : p.popCompletion = some (j, q)) : books q = books p := by
  unfold Part.popCompletion at h
  split at h
  · cases h
  · cases h; rfl

@[simp] theorem activateHead_books (p : Part) (g : Gantry) (j : JobNo) : books (p.activateHead g j) = books p := by
  unfold Part.activateHead; exact ite_books rfl rfl

@[simp] theorem settleJob_books (p : Part) (g : Gantry) (j : JobNo) (c : Completion) : books (p.settleJob g j c) = books p := by
  have hw : books (p.writeRecord j 1 (.completion c)) = books p := writeRecord_books ..
  unfold Part.settleJob; exact ite_books hw (ite_books hw hw)

/-! ## The Mark Sequencer (chapter 7) -/

@[simp] theorem endPhase_books (p : Part) (g : Gantry) (phase : MarkPhase) : books (p.endPhase g phase) = books p := by
  unfold Part.endPhase Part.batchNotice; dsimp only; split <;> rfl

@[simp] theorem markPump_books (p : Part) (g : Gantry) : books (p.markPump g) = books p := by
  unfold Part.markPump
  refine ite_books ?_ rfl
  split
  · exact ite_books (endPhase_books ..) rfl
  · rfl
  · split
    · rfl
    · split <;> rfl

@[simp] theorem applyMark_books (p : Part) (g : Gantry) (x : Fin 4) (f : MarkSlot) (e : MarkEntry) (ok : Bool) :
    books (p.applyMark g x f e ok) = books p := by
  unfold Part.applyMark; exact ite_books rfl rfl

@[simp] theorem endRetry_books (p : Part) (g : Gantry) (ok : Bool) : books (p.endRetry g ok) = books p := by
  unfold Part.endRetry; cases ok <;> exact endPhase_books ..

@[simp] theorem markDone_books (p : Part) (g : Gantry) (slot : Nat) (ok : Bool) : books (p.markDone g slot ok) = books p := by
  unfold Part.markDone
  refine ite_books rfl ?_
  split
  · rfl
  · split
    · rfl
    · refine ite_books ?_ rfl
      split
      · rfl
      · exact ite_books ((endRetry_books ..).trans (applyMark_books ..)) (applyMark_books ..)

@[simp] theorem markRefused_books (p : Part) (g : Gantry) (x : Fin 4) (code : Nat) : books (p.markRefused g x code) = books p := by
  unfold Part.markRefused
  split
  · rfl
  · exact ite_books rfl rfl

@[simp] theorem decideRetry_books (p : Part) (g : Gantry) (part : Nat) : books (p.decideRetry g part) = books p := by
  unfold Part.decideRetry; exact ite_books rfl (ite_books rfl rfl)

@[simp] theorem decideStatus_books (p : Part) (g : Gantry) (part : Nat) (status : MarkStatus) :
    books (p.decideStatus g part status) = books p := by
  unfold Part.decideStatus; exact ite_books rfl rfl

/-! ## Height references (chapter 6) -/

@[simp] theorem requestReference_books (p : Part) (g : Gantry) : books (p.requestReference g) = books p := by
  unfold Part.requestReference; exact ite_books rfl rfl

@[simp] theorem enterReference_books (p : Part) (g : Gantry) (ret : RefReturn) : books (p.enterReference g ret) = books p :=
  requestReference_books ..

@[simp] theorem actOnReturn_books (p : Part) (g : Gantry) : books (p.actOnReturn g) = books p := by
  unfold Part.actOnReturn
  dsimp only
  split
  · rfl
  · split
    · exact ite_books rfl rfl
    · rfl
  · rfl

@[simp] theorem idleReference_books (p : Part) (g : Gantry) : books (p.idleReference g) = books p := by
  unfold Part.idleReference; exact ite_books (requestReference_books ..) rfl

@[simp] theorem releaseAsk_books (p : Part) (g : Gantry) : books (p.releaseAsk g) = books p := by
  unfold Part.releaseAsk; dsimp only; split <;> rfl

@[simp] theorem afterIdleDone_books (p : Part) (g : Gantry) : books (p.afterIdleDone g) = books p := by
  unfold Part.afterIdleDone; exact ite_books (ite_books (releaseAsk_books p g) rfl) rfl

@[simp] theorem referenceDone_books (p : Part) (g : Gantry) : books (p.referenceDone g) = books p := by
  unfold Part.referenceDone
  refine ite_books rfl ?_
  split
  · exact ite_books (actOnReturn_books ..) (requestReference_books ..)
  · exact ite_books rfl (afterIdleDone_books ..)
  · rfl

/-! ## The Burn Dispatcher (chapter 5) -/

@[simp] theorem ownBed_books (p : Part) (g : Gantry) : books (p.ownBed g) = books p := by
  unfold Part.ownBed; exact ite_books rfl rfl

@[simp] theorem takeUp_books (p : Part) (g : Gantry) : books (p.takeUp g) = books p := by
  unfold Part.takeUp
  refine ite_books ?_ rfl
  split
  · rfl
  · next b _ =>
    refine ite_books rfl ?_
    have hr := requestBed_books p (.burn g b)
    split
    · next hq => rw [hq] at hr; exact (ownBed_books ..).trans hr
    · next hq => rw [hq] at hr; exact hr

@[simp] theorem gantryGranted_books (p : Part) (g : Gantry) : books (p.gantryGranted g) = books p := by
  unfold Part.gantryGranted; exact ite_books (ownBed_books p g) rfl

@[simp] theorem checkRegistration_books (p : Part) (g : Gantry) (b : Bed) (tag : Tag) :
    books (p.checkRegistration g b tag) = books p := by
  unfold Part.checkRegistration; exact ite_books rfl rfl

@[simp] theorem startJob_books (p : Part) (g : Gantry) : books (p.startJob g) = books p := by
  unfold Part.startJob
  split
  · rfl
  · split
    · refine ite_books ?_ (activateHead_books ..)
      dsimp only
      split
      · exact activateHead_books ..
      · exact (checkRegistration_books ..).trans (activateHead_books ..)
    · rfl

@[simp] theorem registered_books (p : Part) (g : Gantry) (ox oy k : Int) : books (p.registered g ox oy k) = books p := by
  unfold Part.registered
  refine ite_books ?_ rfl
  split
  · rfl
  · refine ite_books rfl (ite_books rfl ?_)
    split <;> rfl

@[simp] theorem registerFailed_books (p : Part) (g : Gantry) : books (p.registerFailed g) = books p := by
  unfold Part.registerFailed; exact ite_books rfl rfl

@[simp] theorem passOver_books (p : Part) (g : Gantry) (j : JobNo) (i : Nat) : books (p.passOver g j i) = books p := by
  unfold Part.passOver
  split
  · rfl
  · dsimp only; split <;> rfl

@[simp] theorem enterPart_books (p : Part) (g : Gantry) (j : JobNo) (i : Nat) : books (p.enterPart g j i) = books p := by
  unfold Part.enterPart; dsimp only; split <;> rfl

@[simp] theorem holdAt_books (p : Part) (g : Gantry) (part : Nat) (reasons : Held) (entry : Bool) :
    books (p.holdAt g part reasons entry) = books p := by
  unfold Part.holdAt; dsimp only; split <;> split <;> rfl

@[simp] theorem boundary_books (p : Part) (g : Gantry) (entry : Bool) : books (p.boundary g entry) = books p := by
  unfold Part.boundary
  dsimp only
  split
  · split
    · exact passOver_books ..
    · refine ite_books ((holdAt_books ..).trans ?_)
        (ite_books ((enterReference_books ..).trans ?_) ((enterPart_books ..).trans ?_))
      all_goals split <;> rfl
  · rfl

@[simp] theorem preparePierce_books (p : Part) (g : Gantry) : books (p.preparePierce g) = books p := by
  unfold Part.preparePierce
  dsimp only
  split
  · split
    · refine ite_books (enterReference_books ..) ?_
      split <;> rfl
    · rfl
  · rfl

@[simp] theorem pierceOk_books (p : Part) (g : Gantry) : books (p.pierceOk g) = books p := by
  unfold Part.pierceOk
  dsimp only
  split
  · rfl
  · split <;> rfl
  · rfl

@[simp] theorem pierceFailed_books (p : Part) (g : Gantry) : books (p.pierceFailed g) = books p := by
  unfold Part.pierceFailed; exact ite_books (ite_books rfl rfl) rfl

@[simp] theorem sendSegment_books (p : Part) (g : Gantry) (i : Nat) (r : Record) : books (p.sendSegment g i r) = books p := by
  unfold Part.sendSegment; split <;> rfl

@[simp] theorem stream_books (p : Part) (g : Gantry) : books (p.stream g) = books p := by
  unfold Part.stream
  dsimp only
  split
  · split
    · exact ite_books (sendSegment_books ..) rfl
    · exact ite_books (sendSegment_books ..) rfl
    · exact ite_books (sendSegment_books ..) rfl
    · exact ite_books rfl rfl
    · exact ite_books rfl rfl
    · exact ite_books rfl rfl
    · rfl
  · rfl

@[simp] theorem segmentsDone_books (p : Part) (g : Gantry) (count : Nat) : books (p.segmentsDone g count) = books p := by
  unfold Part.segmentsDone; exact ite_books (ite_books rfl (ite_books rfl (ite_books rfl rfl))) rfl

@[simp] theorem stopCut_books (p : Part) (g : Gantry) : books (p.stopCut g) = books p := by
  unfold Part.stopCut; exact ite_books rfl rfl

@[simp] theorem stopPierce_books (p : Part) (g : Gantry) : books (p.stopPierce g) = books p := by
  unfold Part.stopPierce; exact ite_books rfl rfl

@[simp] theorem arrival_books (p : Part) (g : Gantry) : books (p.arrival g) = books p := by
  unfold Part.arrival
  dsimp only
  split
  · exact stopCut_books p g
  · exact stopPierce_books p g
  · rfl
  · rfl

@[simp] theorem resume_books (p : Part) (g : Gantry) (i fraction : Nat) : books (p.resume g i fraction) = books p := by
  unfold Part.resume
  dsimp only
  split
  · rfl
  · split
    · rfl
    · split <;> rfl

@[simp] theorem clearance_books (p : Part) (g : Gantry) : books (p.clearance g) = books p := by
  unfold Part.clearance
  dsimp only
  split
  · rfl
  · split
    · exact resume_books ..
    · rfl
  · rfl

@[simp] theorem stoppedAt_books (p : Part) (g : Gantry) (i fraction : Nat) : books (p.stoppedAt g i fraction) = books p := by
  unfold Part.stoppedAt; exact ite_books (ite_books (ite_books (resume_books ..) rfl) rfl) rfl

@[simp] theorem faultWithoutJob_books (p : Part) (g : Gantry) (cause : StateCause) (code : Option Nat) :
    books (p.faultWithoutJob g cause code) = books p := releaseAsk_books p g

@[simp] theorem machine_books (p : Part) (g : Gantry) (code : Nat) (arcStop : Bool) : books (p.machine g code arcStop) = books p := by
  unfold Part.machine
  refine ite_books (ite_books rfl rfl) ?_
  split
  · exact faultWithoutJob_books ..
  · exact faultWithoutJob_books ..
  · rfl

@[simp] theorem engineLost_books (p : Part) (g : Gantry) : books (p.engineLost g) = books p := by
  unfold Part.engineLost
  refine ite_books rfl ?_
  split
  · exact faultWithoutJob_books ..
  · exact faultWithoutJob_books ..
  · rfl

@[simp] theorem jobEnd_books (p : Part) (g : Gantry) (outcome : JobOutcome) (stop : Option Nat) (goes : EndTo) :
    books (p.jobEnd g outcome stop goes) = books p := by
  unfold Part.jobEnd
  dsimp only
  split
  · rfl
  · split
    · exact settleJob_books ..
    · rfl

@[simp] theorem engineEnd_books (p : Part) (g : Gantry) (x : JobEnding) : books (p.engineEnd g x) = books p := by
  unfold Part.engineEnd; dsimp only; split <;> rfl

@[simp] theorem gantryAck_books (p : Part) (g : Gantry) (f : FloorFrame) : books (p.gantryAck g f) = books p := by
  unfold Part.gantryAck
  dsimp only
  split
  · rfl
  · split <;> rfl
  · rfl

@[simp] theorem faultEvent_books (p : Part) (g : Gantry) (code : Nat) : books (p.faultEvent g code) = books p := by
  unfold Part.faultEvent; split <;> rfl

@[simp] theorem gantryRefuse_books (p : Part) (g : Gantry) (f : FloorFrame) (code : Nat) :
    books (p.gantryRefuse g f code) = books p := by
  unfold Part.gantryRefuse
  dsimp only
  split
  · exact ite_books (faultWithoutJob_books ..) rfl
  · exact ite_books rfl rfl
  · rfl
  · exact ite_books rfl rfl
  · exact markRefused_books ..
  · rfl
  · rfl
  · exact ite_books rfl rfl

@[simp] theorem gantryEvent_books (p : Part) (g : Gantry) (e : GantryEvent) : books (p.gantryEvent g e) = books p := by
  cases e with
  | registered ox oy k => exact registered_books ..
  | registerFailed => exact registerFailed_books ..
  | referenceDone => exact referenceDone_books ..
  | pierceOk => exact pierceOk_books ..
  | pierceFailed => exact pierceFailed_books ..
  | segmentsDone n => exact segmentsDone_books ..
  | markDone x ok => exact markDone_books ..
  | stoppedAt i f => exact stoppedAt_books ..
  | fault code => exact faultEvent_books ..

/-! ## The Floor Port (chapter 10) -/

@[simp] theorem endPass_books (p : Part) (code : Reason) (body : ReplyBody) : books (p.endPass code body) = books p := by
  unfold Part.endPass; split <;> rfl

@[simp] theorem passRequest_books (p : Part) (tag destination kind : Nat) (payload : List Byte) :
    books (passRequest p tag destination kind payload).1 = books p := by
  unfold passRequest
  split
  · rfl
  · split
    · rfl
    · split
      · rfl
      · rfl
      · split
        · rfl
        · split <;> rfl

@[simp] theorem floorGrant_books (p : Part) : books p.floorGrant = books p := by
  unfold Part.floorGrant Part.grantPending
  refine ite_books rfl ?_
  split
  · split
    · exact ite_books (endPass_books ..) rfl
    · rfl
  · split <;> rfl

@[simp] theorem dropMarks_books (p : Part) (x : Station) (rs : List FloorRequest) : books (p.dropMarks x rs) = books p := by
  unfold Part.dropMarks; split <;> rfl

@[simp] theorem loseStation_books (p : Part) (r : FloorRequest) (cause : MissCause) : books (p.loseStation r cause) = books p :=
  dropMarks_books ..

@[simp] theorem keepFrame_books (p : Part) (r : FloorRequest) : books (p.keepFrame r) = books p := by
  unfold Part.keepFrame
  dsimp only
  split
  · rfl
  · exact ite_books rfl rfl
  · exact ite_books rfl rfl
  · rfl

@[simp] theorem countMiss_books (p : Part) (r : FloorRequest) (cause : MissCause) : books (p.countMiss r cause) = books p := by
  unfold Part.countMiss
  exact ite_books (dropMarks_books ..) (ite_books (keepFrame_books ..) (loseStation_books ..))

@[simp] theorem miss_books (p : Part) (t : Transaction) (cause : MissCause) : books (p.miss t cause) = books p := by
  unfold Part.miss
  dsimp only
  split
  · exact endPass_books ..
  · exact ite_books rfl (countMiss_books ..)

@[simp] theorem foundStation_books (p : Part) (x : Station) : books (p.foundStation x) = books p := by
  unfold Part.foundStation; exact ite_books rfl rfl

@[simp] theorem deliverPosition_books (p : Part) (c : Crane) (x y : Int) (hookLow loaded : Bool)
    (event : Option (OrderEventKind × Nat)) : books (p.deliverPosition c x y hookLow loaded event) = books p := by
  unfold Part.deliverPosition; dsimp only; split <;> exact takePosition_books ..

@[simp] theorem resetFrames_books (p : Part) (stops : List Gantry) (cancels : List (Crane × OrderNo)) :
    books (p.resetFrames stops cancels) = books p := by
  unfold Part.resetFrames
  refine (foldl_books ?_ cancels _).trans (foldl_books ?_ stops p) <;> exact fun _ _ => rfl

/-! ## The Office Port (chapter 11) -/

@[simp] theorem transmit_books (p : Part) : books p.transmit = books p := by
  unfold Part.transmit
  split
  · dsimp only; split <;> rfl
  · rfl
  · rfl

@[simp] theorem reply_books (p : Part) (kind tag : Nat) (code : Reason) (body : ReplyBody) :
    books (p.reply kind tag code body) = books p := rfl

@[simp] theorem goodFrame_books (p : Part) (f : OfficeFrame) : books (p.goodFrame f) = books p := by
  unfold Part.goodFrame; split <;> rfl

@[simp] theorem receiveByte_books (p : Part) (b : Byte) : books (p.receiveByte b) = books p := by
  unfold Part.receiveByte
  dsimp only
  split
  · exact goodFrame_books ..
  · rfl

@[simp] theorem receive_books (p : Part) (bs : List Byte) : books (p.receive bs) = books p := foldl_books receiveByte_books bs p

@[simp] theorem byteGap_books (p : Part) : books p.byteGap = books p := by
  unfold Part.byteGap; split <;> rfl

end Sys2Proof.Machine.OrderBooks
end

section
/-! PROOFS. The invariants on remnant numbers and order queues (R122, R142): what the operations that write the books keep, and with
them every hand-off and the two shapes of a command. -/

namespace Sys2Proof.Machine.OrderBooks

/-! ## What is kept -/

/-- The remnant numbers stay distinct and given by the entry sequence, and the order queues in order, from `p` to `q`. -/
structure Keeps (p q : Part) : Prop where
  remnants : RemnantsOk p → RemnantsOk q
  queues : QueuesOk p → QueuesOk q

theorem Keeps.refl (p : Part) : Keeps p p := ⟨id, id⟩

theorem Keeps.trans {p q r : Part} (h : Keeps p q) (h' : Keeps q r) : Keeps p r :=
  ⟨h'.remnants ∘ h.remnants, h'.queues ∘ h.queues⟩

theorem sublist_of_eq {l m : List Nat} (h : l = m) : l.Sublist m := h ▸ List.Sublist.refl l

/-- Where no number is new and none is doubled, the numbers stay in order. -/
theorem remnantsOk_of_numbers {p q : Part} (h : (q.rsu.remnants.map Remnant.number).Sublist (p.rsu.remnants.map Remnant.number))
    (hs : q.rsu.sequence = p.rsu.sequence) (hp : RemnantsOk p) : RemnantsOk q := by
  obtain ⟨hle, hnd⟩ := hp
  refine ⟨fun r hr => ?_, hnd.sublist h⟩
  obtain ⟨x, hx, hn⟩ := List.mem_map.1 (h.subset (List.mem_map_of_mem hr))
  rw [← hn, hs]
  exact hle x hx

theorem remnantsOk_of_rsu {p q : Part} (hr : q.rsu.remnants = p.rsu.remnants) (hs : q.rsu.sequence = p.rsu.sequence) :
    RemnantsOk p → RemnantsOk q := remnantsOk_of_numbers (sublist_of_eq (congrArg (List.map Remnant.number) hr)) hs

theorem queuesOk_of_cou {p q : Part} (h : q.cou = p.cou) (hp : QueuesOk p) : QueuesOk q := by
  unfold QueuesOk Part.orderQueue Part.order
  rwa [h]

theorem Keeps.of_books {p q : Part} (h : books q = books p) : Keeps p q :=
  ⟨remnantsOk_of_rsu (congrArg (·.2.1) h) (congrArg (·.2.2) h), queuesOk_of_cou (cou_of_books h)⟩

/-- Operations that leave the books, behind one that keeps them in order. -/
theorem Keeps.then_books {p q r : Part} (h : Keeps p q) (hr : books r = books q) : Keeps p r := h.trans (.of_books hr)

/-- An operation that keeps the books in order, behind one that leaves them. -/
theorem Keeps.after_books {p q r : Part} (hq : books q = books p) (h : Keeps q r) : Keeps p r := (Keeps.of_books hq).trans h

theorem Keeps.ite {c : Prop} [Decidable c] {p a b : Part} (ha : Keeps p a) (hb : Keeps p b) : Keeps p (if c then a else b) := by
  split <;> assumption

/-! ## The remnant table (R142, R143) -/

/-- Records replaced or removed: no number is new, none is doubled. -/
theorem setRemnants_keeps {p : Part} {rs : List Remnant}
    (h : (rs.map Remnant.number).Sublist (p.rsu.remnants.map Remnant.number)) : Keeps p (p.setRemnants rs) :=
  ⟨remnantsOk_of_numbers h rfl, queuesOk_of_cou rfl⟩

theorem map_number_updateWhere {what : Remnant → Bool} {f : Remnant → Remnant} (hf : ∀ r, (f r).number = r.number)
    (rs : List Remnant) : (updateWhere what f rs).map Remnant.number = rs.map Remnant.number := by
  rw [updateWhere, List.map_map]
  refine List.map_congr_left fun r _ => ?_
  dsimp only [Function.comp]
  split
  · exact hf r
  · rfl

theorem changeRemnant_keeps {f : Remnant → Remnant} (hf : ∀ r, (f r).number = r.number) (p : Part) (n : Nat) :
    Keeps p (p.changeRemnant n f) := by
  unfold Part.changeRemnant
  split
  · exact (setRemnants_keeps (sublist_of_eq (map_number_updateWhere hf _))).then_books rfl
  · exact .refl p

theorem changeRemnant_cou (p : Part) (n : Nat) (f : Remnant → Remnant) : (p.changeRemnant n f).cou = p.cou := by
  unfold Part.changeRemnant; split <;> rfl

theorem remnantSet_keeps (p : Part) (n : Nat) (location : Option Location) (state : Option RemnantState) :
    Keeps p (p.remnantSet n location state) := by
  refine changeRemnant_keeps ?_ p n
  exact fun _ => rfl

theorem remnantGone_keeps (p : Part) (n : Nat) : Keeps p (p.remnantGone n) := by
  unfold Part.remnantGone
  exact .ite ((setRemnants_keeps (List.filter_sublist.map _)).then_books rfl) (.refl p)

/-- A record created takes the raised sequence value, which no record has (R142). -/
theorem createRemnant_keeps (p : Part) (r : Remnant) : Keeps p (p.createRemnant r) := by
  refine ⟨fun ⟨hle, hnd⟩ => ⟨fun x hx => ?_, ?_⟩, queuesOk_of_cou rfl⟩
  · rcases List.mem_append.1 (show x ∈ p.rsu.remnants ++ [{ r with number := p.rsu.sequence + 1 }] from hx) with hx | hx
    · exact Nat.le_succ_of_le (hle x hx)
    · rw [List.mem_singleton.1 hx]; exact Nat.le_refl _
  · show ((p.rsu.remnants ++ [{ r with number := p.rsu.sequence + 1 }]).map Remnant.number).Nodup
    rw [List.map_append, List.nodup_append]
    refine ⟨hnd, by simp, fun m hm k hk => ?_⟩
    obtain ⟨x, hx, rfl⟩ := List.mem_map.1 hm
    have := hle x hx
    simp at hk
    omega

theorem pushSlot_keeps (p : Part) (k : SlotNo) (n : Nat) (claim : Option OrderNo) (state : Option RemnantState) :
    Keeps p (p.pushSlot k n claim state) :=
  .after_books (changeSlot_books p k _) (remnantSet_keeps ..)

theorem unreserve_number (r : Remnant) : r.unreserve.number = r.number := by unfold Remnant.unreserve; split <;> rfl

theorem settleBurned_keeps (p : Part) (e : JobEnding) : Keeps p (p.settleBurned e) := by
  unfold Part.settleBurned
  split
  · exact .refl p
  · refine .ite (remnantGone_keeps ..) (changeRemnant_keeps (fun r => ?_) ..)
    dsimp only
    split <;> exact unreserve_number r

theorem settleLeft_keeps (p : Part) (e : JobEnding) : Keeps p (p.settleLeft e).1 := by
  unfold Part.settleLeft
  split
  · exact .refl p
  · split
    · split
      · exact (createRemnant_keeps ..).then_books rfl
      · exact .of_books rfl
    · exact .refl p

theorem settleStock_keeps (p : Part) (g : Gantry) (e : JobEnding) : Keeps p (p.settleStock g e) :=
  ((settleBurned_keeps p e).trans (settleLeft_keeps _ e)).then_books rfl

theorem stockTold_keeps (p : Part) (n : OrderNo) (endState : OrderState) : Keeps p (p.stockTold n endState) := by
  unfold Part.stockTold
  split
  · exact .refl p
  · next r _ =>
    have hk : Keeps p (p.setRemnants (updateWhere (·.number == r.number)
        (fun x => { x with restack := r.restack.filter (· != n) }) p.rsu.remnants)) := by
      refine setRemnants_keeps (sublist_of_eq (map_number_updateWhere ?_ _))
      exact fun _ => rfl
    exact .ite hk (hk.then_books rfl)

theorem warmReset_number (r : Remnant) : r.warmReset.number = r.number := by unfold Remnant.warmReset; dsimp only; split <;> rfl

/-! ## The order records and queues (R122, R124, R135) -/

/-- An order's record changed, its crane the same. -/
theorem setOrder_keeps {p : Part} {n : OrderNo} {o o' : Order} (ho : p.order n = some o) (hc : o'.crane = o.crane) :
    Keeps p (p.setOrder n (some o')) := by
  refine ⟨remnantsOk_of_rsu rfl rfl, fun h c => ?_⟩
  obtain ⟨hlen, hnd, huse⟩ := h c
  refine ⟨hlen, hnd, fun m hm => ?_⟩
  obtain ⟨x, hx, hxc⟩ := huse m hm
  rw [Part.setOrder_order]
  split
  · next hnm =>
    obtain rfl : o = x := Option.some.inj (ho.symm.trans (hnm ▸ hx))
    exact ⟨o', rfl, hc.trans hxc⟩
  · exact ⟨x, hx, hxc⟩

/-- A free record that takes an order stands in no queue yet (R122, R124). -/
theorem queued_keeps {p : Part} {n : OrderNo} {o : Order} (hn : p.order n = none)
    (hlen : (p.orderQueue o.crane).length < orderQueueCapacity) :
    Keeps p ((p.setOrder n (some o)).setOrderQueue o.crane (p.orderQueue o.crane ++ [n])) := by
  refine ⟨remnantsOk_of_rsu rfl rfl, fun h c => ?_⟩
  have habsent (d : Crane) : n ∉ p.orderQueue d := fun hm => by
    obtain ⟨x, hx, _⟩ := (h d).2.2 n hm
    rw [hn] at hx; cases hx
  have huse (d : Crane) : ∀ m ∈ p.orderQueue d, ∃ x, (p.setOrder n (some o)).order m = some x ∧ x.crane = d := fun m hm => by
    obtain ⟨x, hx, hxc⟩ := (h d).2.2 m hm
    have hnm : n ≠ m := fun e => habsent d (by rwa [e])
    exact ⟨x, by rw [Part.setOrder_order, if_neg hnm, hx], hxc⟩
  rw [Part.setOrderQueue_orderQueue]
  split
  · next hc =>
    subst hc
    refine ⟨?_, ?_, fun m hm => ?_⟩
    · rw [List.length_append]; exact hlen
    · refine List.nodup_append.2 ⟨(h _).2.1, by simp, fun m hm k hk => ?_⟩
      obtain rfl := List.mem_singleton.1 hk
      exact fun e => habsent _ (e ▸ hm)
    · rcases List.mem_append.1 hm with hm | hm
      · exact huse _ m hm
      · rw [List.mem_singleton.1 hm]; exact ⟨o, by simp, rfl⟩
  · exact ⟨(h c).1, (h c).2.1, huse c⟩

/-- An order that ends stands in the queue of its own crane alone, and leaves it (R122, R135). -/
theorem unqueued_keeps {p : Part} {n : OrderNo} {o : Order} (ho : p.order n = some o) :
    Keeps p ((p.setOrderQueue o.crane ((p.orderQueue o.crane).filter (· != n))).setOrder n none) := by
  refine ⟨remnantsOk_of_rsu rfl rfl, fun h c => ?_⟩
  have huse {d : Crane} {m : OrderNo} (hm : m ∈ p.orderQueue d) (hmn : m ≠ n) :
      ∃ x, ((p.setOrderQueue o.crane ((p.orderQueue o.crane).filter (· != n))).setOrder n none).order m = some x ∧ x.crane = d := by
    obtain ⟨x, hx, hxc⟩ := (h d).2.2 m hm
    exact ⟨x, by rw [Part.setOrder_order, if_neg hmn.symm]; exact hx, hxc⟩
  rw [Part.setOrder_orderQueue, Part.setOrderQueue_orderQueue]
  split
  · next hc =>
    subst hc
    refine ⟨Nat.le_trans (List.length_filter_le ..) (h _).1, (h _).2.1.filter _, fun m hm => ?_⟩
    obtain ⟨hm, hmn⟩ := List.mem_filter.1 hm
    exact huse hm (by simpa using hmn)
  · next hc =>
    refine ⟨(h c).1, (h c).2.1, fun m hm => huse hm fun e => ?_⟩
    obtain ⟨x, hx, hxc⟩ := (h c).2.2 m hm
    rw [e, ho] at hx
    exact hc (Option.some.inj hx ▸ hxc)

/-! ## Placing (R124, R125) -/

theorem order_of_freeOrder {p : Part} {n : OrderNo} (h : p.freeOrder = some n) : p.order n = none := by
  simpa using List.find?_some h

/-- An order placed in a queue that has room, and the length of the queue then (R124). -/
theorem placeOrder_keeps {p q : Part} {o : Order} {n : OrderNo} (h : p.placeOrder o = some (q, n))
    (hlen : (p.orderQueue o.crane).length < orderQueueCapacity) :
    Keeps p q ∧ (q.orderQueue o.crane).length = (p.orderQueue o.crane).length + 1 := by
  unfold Part.placeOrder at h
  split at h
  · cases h
  · next m hm =>
    cases h
    constructor
    · exact (queued_keeps (order_of_freeOrder hm) hlen).then_books (ite_books rfl rfl)
    · split <;> simp

/-- Orders of one crane placed in a queue that has room for all of them (R125). -/
theorem placeOrders_keeps {c : Crane} {os : List Order} (hc : ∀ o ∈ os, o.crane = c) {p : Part}
    (hlen : (p.orderQueue c).length + os.length ≤ orderQueueCapacity) : Keeps p (p.placeOrders os).1 := by
  induction os generalizing p with
  | nil => exact .refl p
  | cons o os ih =>
      have ho : o.crane = c := hc o (by simp)
      have hos : ∀ x ∈ os, x.crane = c := fun x hx => hc x (by simp [hx])
      rw [List.length_cons] at hlen
      unfold Part.placeOrders
      split
      · next q n hq =>
        obtain ⟨hk, hl⟩ := placeOrder_keeps hq (by rw [ho]; omega)
        rw [ho] at hl
        exact hk.trans (ih hos (by omega))
      · exact ih hos (by omega)

theorem placeList_keeps {p q : Part} {c : Crane} {os : List Order} {ns : List OrderNo} (hc : ∀ o ∈ os, o.crane = c)
    (h : p.placeList c os = .ok (q, ns)) : Keeps p q := by
  unfold Part.placeList at h
  split at h
  · cases h
  · split at h
    · cases h
    · next hlen =>
      have hk := placeOrders_keeps hc (Nat.le_of_not_lt hlen)
      rwa [Except.ok.inj h] at hk

/-! ## Evaluation and release (R128, R129) -/

@[simp] theorem slotClaim_books (p : Part) (x : Place) (claim : Option OrderNo) : books (p.slotClaim x claim) = books p := by
  unfold Part.slotClaim; split <;> rfl

@[simp] theorem withdrawClaim_books (p : Part) (n : OrderNo) (o : Order) : books (p.withdrawClaim n o) = books p :=
  ite_books rfl rfl

theorem release_keeps (p : Part) (n : OrderNo) : Keeps p (p.release n) := by
  unfold Part.release
  split
  · exact .refl p
  · next o ho =>
    have hb : books ((p.slotClaim o.source (some n)).slotClaim o.destination (some n)) = books p := by simp
    dsimp only
    split
    · refine (Keeps.of_books hb).trans ((remnantSet_keeps ..).trans (.after_books (request_books ..) (setOrder_keeps (o := o) ?_ rfl)))
      rw [← ho]
      exact order_of_cou ((changeRemnant_cou ..).trans (cou_of_books hb)) n
    · refine .after_books hb (.after_books (request_books ..) (setOrder_keeps (o := o) ?_ rfl))
      rw [← ho]
      exact order_of_cou (cou_of_books hb) n

/-- An order's record changed behind operations that leave the books. -/
theorem setOrder_keeps_after {p q : Part} {n : OrderNo} {o o' : Order} (hq : books q = books p) (ho : p.order n = some o)
    (hc : o'.crane = o.crane) : Keeps p (q.setOrder n (some o')) :=
  .after_books hq (setOrder_keeps ((order_of_cou (cou_of_books hq) n).trans ho) hc)

theorem evalOrder_keeps {p : Part} {n : OrderNo} {o : Order} (ho : p.order n = some o) : Keeps p (p.evalOrder n o) := by
  unfold Part.evalOrder
  refine .ite (setOrder_keeps_after (withdrawClaim_books ..) ho rfl)
    (.ite (release_keeps ..) (.ite (setOrder_keeps ho rfl) ?_))
  have hr := requestBed_books p (.claim n o.claims)
  split
  · next hq => rw [hq] at hr; exact .after_books hr (release_keeps ..)
  · next hq => rw [hq] at hr; exact setOrder_keeps_after hr ho rfl

theorem evalHead_keeps (p : Part) (c : Crane) : Keeps p (p.evalHead c) := by
  unfold Part.evalHead
  split
  · exact .refl p
  · split
    · exact .refl p
    · next ho => exact .ite (evalOrder_keeps ho) (.refl p)

theorem orderGranted_keeps (p : Part) (n : OrderNo) : Keeps p (p.orderGranted n) := by
  unfold Part.orderGranted
  split
  · exact .ite (release_keeps p n) (.refl p)
  · exact .refl p

theorem craneReport_keeps (p : Part) (c : Crane) : Keeps p (p.craneReport c) := by
  unfold Part.craneReport
  split
  · exact .refl p
  · exact .ite (.ite (.of_books rfl) (.refl p)) (evalHead_keeps p c)

/-! ## Answers and events (R130 to R134) -/

@[simp] theorem freePlace_books (p : Part) (x : Place) (held : Bool) : books (p.freePlace x held) = books p := by
  unfold Part.freePlace
  refine ite_books ?_ rfl
  split
  · rfl
  · exact slotClaim_books ..

@[simp] theorem restoreRemnant_books (p : Part) (o : Order) (location : Option Location) :
    books (p.restoreRemnant o location) = books p := by
  unfold Part.restoreRemnant; split <;> rfl

theorem orderAck_keeps (p : Part) (n : OrderNo) : Keeps p (p.orderAck n) := by
  unfold Part.orderAck
  split
  · next ho => exact .ite (setOrder_keeps ho rfl) (.refl p)
  · exact .refl p

theorem abortOrder_keeps {p : Part} {n : OrderNo} {o : Order} (ho : p.order n = some o) (cause : OrderCause) :
    Keeps p (p.abortOrder n o cause) :=
  (setOrder_keeps (o' := { o with sourceClaim := false, destClaim := false }) ho rfl).then_books
    ((restoreRemnant_books ..).trans ((freePlace_books ..).trans (freePlace_books ..)))

theorem orderRefuse_keeps (p : Part) (n : OrderNo) (code : Nat) : Keeps p (p.orderRefuse n code) := by
  unfold Part.orderRefuse
  split
  · next ho => exact .ite (abortOrder_keeps ho _) (.refl p)
  · exact .refl p

theorem picked_keeps (p : Part) (n : OrderNo) : Keeps p (p.picked n) := by
  unfold Part.picked
  split
  · exact .refl p
  · next o ho =>
    refine (setOrder_keeps (o' := { o with state := .picked, sourceClaim := false }) ho rfl).then_books ?_
    dsimp only
    split
    · split <;> split <;> simp
    · split <;> simp
    · rfl

theorem placed_keeps (p : Part) (n : OrderNo) : Keeps p (p.placed n) := by
  unfold Part.placed
  split
  · exact .refl p
  · next o ho =>
    refine (setOrder_keeps (o' := { o with sourceClaim := false, destClaim := false }) ho rfl).trans ?_
    dsimp only
    split
    · refine .of_books ?_
      split <;> simp
    · split
      · exact (pushSlot_keeps ..).then_books rfl
      · exact .of_books rfl
    · split
      · exact .of_books rfl
      · exact .of_books rfl
    · exact .of_books (restoreRemnant_books ..)

theorem orderEvent_keeps (p : Part) (c : Crane) (k : OrderEventKind) (n : OrderNo) : Keeps p (p.orderEvent c k n) := by
  unfold Part.orderEvent
  split
  · exact .refl p
  · next o ho =>
    refine .ite ?_ (.refl p)
    split
    · exact picked_keeps p n
    · exact .ite (placed_keeps p n) (.of_books rfl)
    · exact placed_keeps p n
    · exact abortOrder_keeps ho _
    · exact abortOrder_keeps ho _
    · exact .refl p

/-! ## The end of an order (R135, R136, R160) -/

theorem orderEnd_keeps (p : Part) (n : OrderNo) (endState : OrderState) (cause : Option OrderCause) (cascade : Bool) :
    Keeps p (p.orderEnd n endState cause cascade) := by
  unfold Part.orderEnd
  split
  · exact .refl p
  · next o ho =>
    have hb : books (p.withdrawClaim n o) = books p := withdrawClaim_books ..
    have hq : (p.withdrawClaim n o).orderQueue o.crane = p.orderQueue o.crane := by
      unfold Part.orderQueue; rw [cou_of_books hb]
    have he : Keeps p (((p.withdrawClaim n o).setOrderQueue o.crane ((p.orderQueue o.crane).filter (· != n))).setOrder n none) :=
      hq ▸ .after_books hb (unqueued_keeps ((order_of_cou (cou_of_books hb) n).trans ho))
    exact he.then_books (ite_books (ite_books rfl rfl) (ite_books rfl rfl))

theorem cancelRestack_keeps (p : Part) (n : OrderNo) : Keeps p (p.cancelRestack n) := by
  unfold Part.cancelRestack
  split
  · exact .ite (.of_books rfl) (.refl p)
  · exact .refl p

/-! ## Hand-offs -/

/-- Every hand-off keeps the books in order. -/
theorem micro_keeps (p : Part) (t : Task) : Keeps p (p.micro t) := by
  cases t with
  | offer b => exact .of_books (offer_books p b)
  | contentReport b => exact .of_books rfl
  | releaseOwner b => exact .of_books rfl
  | releaseClaim b => exact .of_books rfl
  | craneReport c => exact craneReport_keeps p c
  | evalHead c => exact evalHead_keeps p c
  | evalNewHead c before => exact .ite (.refl p) (evalHead_keeps p c)
  | slotReport k => exact .of_books rfl
  | remnantReport n => exact .of_books rfl
  | orderGranted n => exact orderGranted_keeps p n
  | gantryGranted g => exact .of_books (gantryGranted_books p g)
  | takeUp g => exact .of_books (takeUp_books p g)
  | idleReference g => exact .of_books (idleReference_books p g)
  | startJob g => exact .of_books (startJob_books p g)
  | jobEnd g outcome stop goes => exact .of_books (jobEnd_books ..)
  | settleStock g e => exact settleStock_keeps p g e
  | bedJobEnd e remnant => exact .of_books (bedJobEnd_books ..)
  | markJobEnd g => exact .of_books rfl
  | engineEnd g e => exact .of_books (engineEnd_books p g e)
  | finishDisable g => exact .of_books rfl
  | markPump g => exact .of_books (markPump_books p g)
  | boundary g entry => exact .of_books (boundary_books ..)
  | stream g => exact .of_books (stream_books p g)
  | preparePierce g => exact .of_books (preparePierce_books p g)
  | arrival g => exact .of_books (arrival_books p g)
  | clearance g => exact .of_books (clearance_books p g)
  | machine g code arcStop => exact .of_books (machine_books ..)
  | engineLost g => exact .of_books (engineLost_books p g)
  | craneStationLost c => exact .of_books (loseCrane_books ..)
  | orderEnd n endState cause cascade => exact orderEnd_keeps ..
  | stockTold n endState => exact stockTold_keeps ..
  | cancelRestack n => exact cancelRestack_keeps p n
  | picked n => exact picked_keeps p n
  | placed n => exact placed_keeps p n
  | remnantSet n location state => exact remnantSet_keeps ..
  | remnantGone n => exact remnantGone_keeps p n
  | gantryEvent g e => exact .of_books (gantryEvent_books p g e)
  | orderEvent c k n => exact orderEvent_keeps ..
  | notice n => exact .of_books rfl

theorem settle_keeps (k : Nat) (p : Part) : Keeps p (settle k p) := by
  induction k generalizing p with
  | zero => exact .refl p
  | succ k ih =>
      unfold settle
      split
      · exact .refl p
      · next t rest _ =>
        have hrun : Keeps p (p.runFirst t rest) :=
          .after_books (q := { p with agenda := [] }) rfl ((micro_keeps _ t).then_books rfl)
        exact hrun.trans (ih _)

theorem settled_keeps (p : Part) : Keeps p p.settled := (settle_keeps _ p).then_books rfl

/-! ## The two shapes of a command -/

/-- A request that its checks let through may rely on them. -/
theorem checked_keeps_of_checks {p : Part} {checks : List (Bool × Reason)} {body : Answered} (hcode : ∀ c ∈ checks, c.2 ≠ .ok)
    (h : (∀ c ∈ checks, c.1 = true) → Keeps p body.1) : Keeps p (checked p checks body).1 := by
  have hall : firstFailure checks = .ok → ∀ c ∈ checks, c.1 = true := by
    clear h
    induction checks with
    | nil => simp
    | cons c rest ih =>
        intro hok
        rw [firstFailure] at hok
        split at hok
        · next hc => exact List.forall_mem_cons.2 ⟨hc, ih (fun d hd => hcode d (by simp [hd])) hok⟩
        · exact absurd hok (hcode c (by simp))
  unfold checked
  split
  · next hok => exact h (hall hok)
  · exact .refl p

theorem checked_keeps {p : Part} {checks : List (Bool × Reason)} {body : Answered} (h : Keeps p body.1) :
    Keeps p (checked p checks body).1 := by
  unfold checked
  split
  · exact h
  · exact .refl p

theorem indexed_keeps {k : Nat} {p : Part} {i : Nat} {body : Fin k → Answered} (h : ∀ x, Keeps p (body x).1) :
    Keeps p (indexed p i body).1 := by
  unfold indexed
  split
  · exact h _
  · exact .refl p

theorem allocated_keeps {p : Part} {job : Nat} {body : JobNo → JobEntry → Answered} (h : ∀ j e, Keeps p (body j e).1) :
    Keeps p (allocated p job body).1 := by
  unfold allocated
  split
  · split
    · exact .refl p
    · exact h _ _
  · exact .refl p

theorem recorded_keeps {p : Part} {n : Nat} {body : Remnant → Answered} (h : ∀ r, Keeps p (body r).1) :
    Keeps p (recorded p n body).1 := by
  unfold recorded
  split
  · exact h _
  · exact .refl p

theorem request?_keeps {p : Part} {c : Instr} {body : Part → Part} (h : ∀ q, Keeps q (body q)) : Keeps p (p.request? c body) := by
  unfold Part.request?
  split
  · exact .refl p
  · exact .of_books rfl
  · exact .after_books (q := p.taking) rfl ((h _).then_books (transmit_books _))

/-- A request whose owner keeps the books in order. -/
theorem serve_keeps {c : Instr} {kind tag : Nat} {owner : Part → Answered} (h : ∀ p, Keeps p (owner p).1) {s t : State}
    (ht : s.serve c kind tag owner = .next t) : Keeps s.part t.part := by
  obtain rfl := Host.Outcome.next.inj ht
  exact request?_keeps (p := s.part) fun p => ((h p).trans (settled_keeps _)).then_books (reply_books ..)

/-- An event that keeps the books in order. -/
theorem happens_keeps {f : Part → Part} (h : ∀ p, Keeps p (f p)) {s t : State} (ht : s.happens f = .next t) :
    Keeps s.part t.part := by
  obtain rfl := Host.Outcome.next.inj ht
  exact .ite (.refl _) (((h _).trans (settled_keeps _)).then_books (transmit_books _))

/-- An event that leaves the books. -/
theorem happens_books {f : Part → Part} (h : ∀ p, books (f p) = books p) {s t : State} (ht : s.happens f = .next t) :
    Keeps s.part t.part := happens_keeps (fun p => .of_books (h p)) ht

end Sys2Proof.Machine.OrderBooks
end

section
/-! PROOFS. Every command keeps the remnant numbers distinct and the order queues in order (R122, R142). -/

namespace Sys2Proof.Machine.OrderBooks

/-! ## The requests of the Remnant Stock Unit and the Crane Order Unit -/

theorem putRemnant_keeps (p : Part) (n : Nat) (loc : Bed ⊕ SlotNo) : Keeps p (p.putRemnant n loc) := by
  cases loc with
  | inl b => exact (remnantSet_keeps ..).then_books (placePlate_books ..)
  | inr k => exact pushSlot_keeps ..

theorem remnantEnter_keeps (p : Part) (grade thickness width length heatLength : Nat) (heatChars : List Byte) (location : RawPlace) :
    Keeps p (remnantEnter p grade thickness width length heatLength heatChars location).1 := by
  unfold remnantEnter
  split
  · exact checked_keeps ((createRemnant_keeps ..).trans (putRemnant_keeps ..))
  · exact .refl p

theorem remnantRemove_keeps (p : Part) (n : Nat) : Keeps p (remnantRemove p n).1 := by
  refine recorded_keeps fun r => checked_keeps ?_
  dsimp only
  split
  · exact .after_books (changeSlot_books ..) (remnantGone_keeps ..)
  · exact remnantGone_keeps p n

theorem remnantRelocate_keeps (p : Part) (n : Nat) (location : RawPlace) : Keeps p (remnantRelocate p n location).1 := by
  refine recorded_keeps fun r => ?_
  split
  · exact .refl p
  · exact checked_keeps (putRemnant_keeps ..)

theorem remnantUnreserve_keeps (p : Part) (n : Nat) : Keeps p (remnantUnreserve p n).1 :=
  recorded_keeps fun _ => checked_keeps (changeRemnant_keeps unreserve_number p n)

theorem store_keeps (p : Part) (tag n : Nat) : Keeps p (store p tag n).1 := by
  refine recorded_keeps fun r => ?_
  split
  · refine checked_keeps ?_
    split
    · next c k _ _ =>
      split
      · next h => exact placeList_keeps (c := c) (by simp) h
      · exact .refl p
      · exact .refl p
    · exact .refl p
  · exact .refl p

theorem reserve_keeps (p : Part) (n reservation : Nat) (restack : List OrderNo) : Keeps p (p.reserve n reservation restack) := by
  refine changeRemnant_keeps ?_ p n
  exact fun _ => rfl

theorem restackOrders_crane (c : Crane) (own : SlotNo) (reservation : Nat) (plan : List (Nat × SlotNo)) :
    ∀ o ∈ restackOrders c own reservation plan, o.crane = c := by
  intro o ho
  obtain ⟨_, _, rfl⟩ := List.mem_map.1 ho
  rfl

theorem takeWinner_keeps (p : Part) (w : Fitting) (reservation : Nat) : Keeps p (p.takeWinner w reservation).1 := by
  unfold Part.takeWinner
  split
  · exact reserve_keeps ..
  · split
    · exact .refl p
    · next c _ =>
      split
      · exact .refl p
      · next h => exact (placeList_keeps (restackOrders_crane c _ _ _) h).trans (reserve_keeps ..)
  · exact .refl p

theorem remnantRequest_keeps (p : Part) (grade thickness w l rotate deep reservation : Nat) :
    Keeps p (remnantRequest p grade thickness w l rotate deep reservation).1 := by
  refine checked_keeps ?_
  split
  · exact .refl p
  · exact takeWinner_keeps ..

theorem craneOrder_keeps (p : Part) (tag crane : Nat) (source destination : RawPlace) (load : RawTag) :
    Keeps p (craneOrder p tag crane source destination load).1 := by
  refine indexed_keeps fun c => ?_
  split
  · refine checked_keeps_of_checks (by simp) fun hchecks => ?_
    have hlen : (p.orderQueue c).length < orderQueueCapacity := by
      simpa using hchecks (decide ((p.orderQueue c).length < orderQueueCapacity), .queueFull) (by simp)
    split
    · next h => exact (placeOrder_keeps h hlen).1
    · exact .refl p
  · exact .refl p

theorem craneOrderCancel_keeps (p : Part) (order : Nat) : Keeps p (craneOrderCancel p order).1 := by
  refine indexed_keeps fun n => ?_
  split
  · exact .refl p
  · split
    · exact .of_books rfl
    · exact .refl p

theorem loadSlot_keeps (p : Part) (index loaded : Nat) (x y : Int) (maxWidth maxLength : Nat) :
    Keeps p (loadSlot p index loaded x y maxWidth maxLength).1 := indexed_keeps fun _ => checked_keeps (.of_books rfl)

/-! ## The requests of the other blocks -/

theorem jobOpen_keeps (p : Part) (pages : Nat) : Keeps p (jobOpen p pages).1 := by
  unfold jobOpen
  split
  · exact .refl p
  · split
    · exact .refl p
    · split
      · exact .refl p
      · exact .of_books rfl

theorem jobWrite_keeps (p : Part) (job offset : Nat) (records : List (List Byte)) : Keeps p (jobWrite p job offset records).1 := by
  refine allocated_keeps fun j e => checked_keeps ?_
  split
  · exact .of_books (writeRecords_books ..)
  · exact .refl p

theorem jobRead_keeps (p : Part) (job offset count : Nat) : Keeps p (jobRead p job offset count).1 :=
  allocated_keeps fun _ _ => checked_keeps (.refl p)

theorem jobEnqueue_keeps (p : Part) (job gantry : Nat) : Keeps p (jobEnqueue p job gantry).1 := by
  refine allocated_keeps fun j e => indexed_keeps fun g => ?_
  dsimp only
  split
  · exact .refl p
  · split
    · exact checked_keeps (.of_books (ite_books rfl rfl))
    · exact .refl p

theorem jobRelease_keeps (p : Part) (job : Nat) : Keeps p (jobRelease p job).1 := by
  refine allocated_keeps fun j e => ?_
  split
  · exact .of_books rfl
  · exact .refl p

theorem completionAck_keeps (p : Part) : Keeps p (completionAck p).1 := by
  unfold completionAck
  split
  · exact .refl p
  · next h => exact .of_books (popCompletion_books h)

theorem completionAckAndRelease_keeps (p : Part) : Keeps p (completionAckAndRelease p).1 := by
  unfold completionAckAndRelease
  split
  · exact .refl p
  · next h => exact (Keeps.of_books (popCompletion_books h)).then_books (releaseJob_books ..)

theorem gantryEnable_keeps (p : Part) (gantry : Nat) : Keeps p (gantryEnable p gantry).1 :=
  indexed_keeps fun _ => checked_keeps (.of_books rfl)

theorem gantryDisable_keeps (p : Part) (gantry : Nat) : Keeps p (gantryDisable p gantry).1 := by
  refine indexed_keeps fun g => checked_keeps (.of_books ?_)
  dsimp only [accept]
  split <;> split <;> simp

theorem gantryHold_keeps (p : Part) (gantry : Nat) : Keeps p (gantryHold p gantry).1 :=
  indexed_keeps fun g => .of_books (ite_books (releaseAsk_books p g) rfl)

theorem gantryRelease_keeps (p : Part) (gantry : Nat) : Keeps p (gantryRelease p gantry).1 := by
  refine indexed_keeps fun g => ?_
  dsimp only
  split
  · exact .refl p
  · split <;> exact .of_books rfl

theorem partDecision_keeps (p : Part) (gantry part decision : Nat) : Keeps p (partDecision p gantry part decision).1 := by
  refine indexed_keeps fun g => checked_keeps (.of_books ?_)
  dsimp only [accept]
  split
  · exact decideStatus_books ..
  · exact decideStatus_books ..
  · exact decideRetry_books ..

theorem bedDeclare_keeps (p : Part) (bed : Nat) (plate : RawTag) (condition : Nat) : Keeps p (bedDeclare p bed plate condition).1 := by
  refine indexed_keeps fun b => ?_
  dsimp only
  split
  · exact checked_keeps (.of_books (setContent_books ..))
  · exact .refl p

theorem bedClearRequest_keeps (p : Part) (bed : Nat) : Keeps p (bedClearRequest p bed).1 := by
  refine indexed_keeps fun b => ?_
  dsimp only
  split
  · exact .refl p
  · refine .of_books ((setContent_books ..).trans ?_)
    split <;> rfl

theorem loadBed_keeps (p : Part) (index loaded : Nat) (xLo xHi yLo yHi ox oy : Int) :
    Keeps p (loadBed p index loaded xLo xHi yLo yHi ox oy).1 := by
  refine indexed_keeps fun b => checked_keeps ?_
  dsimp only
  split
  · exact .of_books (bedLoadedPresences_books ..)
  · refine .of_books (ite_books ?_ ?_) <;> exact bedAbsentPresences_books _ b

theorem loadGantry_keeps (p : Part) (index loaded reach : Nat) (w : Rect) (period retryLimit autoRelease mode depth : Nat) :
    Keeps p (loadGantry p index loaded reach w period retryLimit autoRelease mode depth).1 :=
  indexed_keeps fun _ => checked_keeps (.of_books rfl)

theorem loadCrane_keeps (p : Part) (index installed margin timeout rack : Nat) :
    Keeps p (loadCrane p index installed margin timeout rack).1 := indexed_keeps fun _ => checked_keeps (.of_books rfl)

theorem loadPass_keeps (p : Part) (index diagnostic parameter motion io : Nat) :
    Keeps p (loadPass p index diagnostic parameter motion io).1 := by
  refine indexed_keeps fun x => ?_
  split
  · exact .of_books rfl
  · exact .refl p

theorem loadBand_keeps (p : Part) (index loaded bound margin : Nat) : Keeps p (loadBand p index loaded bound margin).1 :=
  indexed_keeps fun _ => checked_keeps (.of_books rfl)

theorem loadController_keeps (p : Part) (index window : Nat) (hallLength hallWidth : Int) (digPenalty digReserve minimumSize : Nat) :
    Keeps p (loadController p index window hallLength hallWidth digPenalty digReserve minimumSize).1 :=
  checked_keeps (.of_books rfl)

theorem readTable_keeps (p : Part) (range first count step : Nat) (header : Option (Nat × Nat)) (entry : Nat → Option Entry) :
    Keeps p (readTable p range first count step header entry).1 := by
  refine checked_keeps ?_
  split <;> exact .refl p

/-! ## Resets (R138, R161, R186, R187) -/

/-- A reset that empties the Crane Order Unit leaves its queues empty. -/
theorem queuesOk_empty {p : Part} (h : p.cou = {}) : QueuesOk p := by
  intro c
  have hq : p.orderQueue c = [] := by unfold Part.orderQueue look; rw [h]; simp
  simp [hq]

theorem remnantsOk_empty {p : Part} (h : p.rsu.remnants = []) : RemnantsOk p := by simp [RemnantsOk, h]

theorem cold_keeps (p : Part) {q : Part} (hc : q.cou = {}) (hr : q.rsu.remnants = []) : Keeps p q :=
  ⟨fun _ => remnantsOk_empty hr, fun _ => queuesOk_empty hc⟩

theorem endPassAtReset_books (p : Part) : books p.endPassAtReset = books p := ite_books (endPass_books ..) rfl

/-- What the blocks do before the records of orders and remnants are reset leaves the books. -/
theorem blocksReset_books (p : Part) :
    books ((((p.bedsWarmReset p.cutBeds).cranesWarmReset).marksWarmReset).endPassAtReset) = books p :=
  (endPassAtReset_books _).trans ((cranesWarmReset_books _).trans (bedsWarmReset_books ..))

theorem warmReset_books (p : Part) : books p.warmReset = ({}, p.rsu.remnants.map Remnant.warmReset, p.rsu.sequence) := by
  unfold Part.warmReset
  rw [resetFrames_books]
  exact congrArg (fun b => (({} : OrderUnit), b.2.1.map Remnant.warmReset, b.2.2)) (blocksReset_books p)

/-- A warm reset keeps the remnant numbers and empties the queues (R138, R161). -/
theorem warmReset_keeps (p : Part) : Keeps p p.warmReset := by
  have hb := warmReset_books p
  have hr : p.warmReset.rsu.remnants = p.rsu.remnants.map Remnant.warmReset := congrArg (·.2.1) hb
  have hn : p.warmReset.rsu.remnants.map Remnant.number = p.rsu.remnants.map Remnant.number := by
    rw [hr, List.map_map, show Remnant.number ∘ Remnant.warmReset = Remnant.number from funext warmReset_number]
  exact ⟨remnantsOk_of_numbers (sublist_of_eq hn) (congrArg (·.2.2) hb), fun _ => queuesOk_empty (congrArg (·.1) hb)⟩

/-! ## Answers at the Floor Port -/

theorem deliverAck_keeps (p : Part) (x : Station) (f : FloorFrame) : Keeps p (p.deliverAck x f) := by
  unfold Part.deliverAck
  split
  · exact orderAck_keeps ..
  · exact .refl p
  · exact .of_books (gantryAck_books ..)
  · exact .refl p

theorem deliverRefuse_keeps (p : Part) (x : Station) (f : FloorFrame) (code : Nat) : Keeps p (p.deliverRefuse x f code) := by
  unfold Part.deliverRefuse
  split
  · exact orderRefuse_keeps ..
  · exact .refl p
  · exact .of_books (gantryRefuse_books ..)
  · exact .refl p

theorem deliver_keeps (p : Part) (x : Station) (f : FloorFrame) (a : FloorAnswer) : Keeps p (p.deliver x f a) := by
  unfold Part.deliver
  split
  · split
    · exact .of_books (deliverPosition_books ..)
    · exact .refl p
  · split
    · exact .of_books rfl
    · exact .refl p
  · exact deliverAck_keeps ..
  · exact deliverRefuse_keeps ..
  · exact .refl p

theorem answered_keeps (p : Part) (frame : AnswerFrame) (content : FloorAnswer) : Keeps p (p.answered frame content) := by
  unfold Part.answered
  split
  · exact .refl p
  · refine .ite (.of_books (miss_books ..)) ?_
    split
    · refine .ite (.of_books ?_) (.of_books (miss_books ..))
      exact endPass_books ..
    · refine .ite (.trans (.of_books ?_) (deliver_keeps ..)) (.of_books (miss_books ..))
      exact foundStation_books ..

theorem badAnswer_keeps (p : Part) (bytes : List Byte) : Keeps p (p.badAnswer bytes) := by
  unfold Part.badAnswer
  split
  · exact answered_keeps ..
  · exact .of_books (miss_books ..)
  · exact .refl p

theorem windowExpiry_books (p : Part) (begun : Bool) : books (p.windowExpiry begun) = books p := by
  unfold Part.windowExpiry
  split
  · exact miss_books ..
  · rfl

theorem raiseDuePoll_books (p : Part) (c : Crane) : books (p.raiseDuePoll c) = books p := by
  unfold Part.raiseDuePoll; exact ite_books rfl rfl

/-! ## The commands -/

theorem execPassthrough_keeps {tag destination kind : Nat} {payload : List Byte} {s t : State}
    (ht : execPassthrough tag destination kind payload s = .next t) : Keeps s.part t.part := by
  obtain rfl := Host.Outcome.next.inj ht
  dsimp only
  refine request?_keeps fun p => ?_
  have hb := passRequest_books p tag destination kind payload
  split
  · next h => rw [h] at hb; exact (Keeps.after_books hb (settled_keeps _)).then_books (reply_books ..)
  · next h => rw [h] at hb; exact .after_books hb (settled_keeps _)

/-- Every command keeps the books in order. -/
theorem exec_keeps (i : Instr) {s t : State} : exec i s = .next t → Keeps s.part t.part := by
  cases i with
  | jobOpen tag pages => exact serve_keeps (jobOpen_keeps · _)
  | jobWrite tag job offset records => exact serve_keeps (jobWrite_keeps · _ _ _)
  | jobRead tag job offset count => exact serve_keeps (jobRead_keeps · _ _ _)
  | jobEnqueue tag job gantry => exact serve_keeps (jobEnqueue_keeps · _ _)
  | jobRelease tag job => exact serve_keeps (jobRelease_keeps · _)
  | completionAck tag => exact serve_keeps completionAck_keeps
  | completionAckAndRelease tag => exact serve_keeps completionAckAndRelease_keeps
  | gantryEnable tag gantry => exact serve_keeps (gantryEnable_keeps · _)
  | gantryDisable tag gantry => exact serve_keeps (gantryDisable_keeps · _)
  | gantryHold tag gantry => exact serve_keeps (gantryHold_keeps · _)
  | gantryRelease tag gantry => exact serve_keeps (gantryRelease_keeps · _)
  | partDecision tag gantry part decision => exact serve_keeps (partDecision_keeps · _ _ _)
  | bedDeclare tag bed plate condition => exact serve_keeps (bedDeclare_keeps · _ _ _)
  | bedClear tag bed => exact serve_keeps (bedClearRequest_keeps · _)
  | craneOrder tag crane source destination load => exact serve_keeps (craneOrder_keeps · _ _ _ _ _)
  | craneOrderCancel tag order => exact serve_keeps (craneOrderCancel_keeps · _)
  | remnantEnter tag grade thickness width length heatLength heatChars location =>
      exact serve_keeps (remnantEnter_keeps · _ _ _ _ _ _ _)
  | remnantRemove tag number => exact serve_keeps (remnantRemove_keeps · _)
  | remnantRelocate tag number location => exact serve_keeps (remnantRelocate_keeps · _ _)
  | remnantUnreserve tag number => exact serve_keeps (remnantUnreserve_keeps · _)
  | store tag number => exact serve_keeps (store_keeps · _ _)
  | remnantRequest tag grade thickness w l rotate deep reservation => exact serve_keeps (remnantRequest_keeps · _ _ _ _ _ _ _)
  | loadEntryBed tag index loaded xLo xHi yLo yHi ox oy => exact serve_keeps (loadBed_keeps · _ _ _ _ _ _ _ _)
  | loadEntryGantry tag index loaded reach xMin xMax yMin yMax period retryLimit autoRelease mode depth =>
      exact serve_keeps (loadGantry_keeps · _ _ _ _ _ _ _ _ _)
  | loadEntryCrane tag index installed margin timeout rack => exact serve_keeps (loadCrane_keeps · _ _ _ _ _)
  | loadEntrySlot tag index loaded x y maxWidth maxLength => exact serve_keeps (loadSlot_keeps · _ _ _ _ _ _)
  | loadEntryPass tag index diagnostic parameter motion io => exact serve_keeps (loadPass_keeps · _ _ _ _ _)
  | loadEntryBand tag index loaded bound margin => exact serve_keeps (loadBand_keeps · _ _ _ _)
  | loadEntryController tag index window hallLength hallWidth digPenalty digReserve minimumSize =>
      exact serve_keeps (loadController_keeps · _ _ _ _ _ _ _)
  | readEntryBed tag first count step => exact serve_keeps fun p => readTable_keeps p ..
  | readEntryGantry tag first count step => exact serve_keeps fun p => readTable_keeps p ..
  | readEntryCrane tag first count step => exact serve_keeps fun p => readTable_keeps p ..
  | readEntrySlot tag first count step => exact serve_keeps fun p => readTable_keeps p ..
  | readEntryPass tag first count step => exact serve_keeps fun p => readTable_keeps p ..
  | readEntryBand tag first count step => exact serve_keeps fun p => readTable_keeps p ..
  | readEntryController tag first count step => exact serve_keeps fun p => readTable_keeps p ..
  | readEntryPresence tag first count step => exact serve_keeps fun p => readTable_keeps p ..
  | readEntryRegistration tag first count step => exact serve_keeps fun p => readTable_keeps p ..
  | readEntryJob tag first count step => exact serve_keeps fun p => readTable_keeps p ..
  | readEntryMark tag first count step => exact serve_keeps fun p => readTable_keeps p ..
  | readEntryOrder tag first count step => exact serve_keeps fun p => readTable_keeps p ..
  | readEntryRemnant tag first count step => exact serve_keeps fun p => readTable_keeps p ..
  | readEntryStation tag first count step => exact serve_keeps fun p => readTable_keeps p ..
  | readStatus tag => exact serve_keeps Keeps.refl
  | clearFlags tag => exact serve_keeps fun p => .of_books rfl
  | controllerReset tag => exact serve_keeps warmReset_keeps
  | passthrough tag destination kind payload => exact execPassthrough_keeps
  | unknownRequest tag kind fault => exact serve_keeps Keeps.refl
  | officeFrameReceived bytes => exact happens_books (receive_books · bytes)
  | officeByteGap before next =>
      exact happens_books fun p => (receiveByte_books ..).trans ((byteGap_books _).trans (receive_books ..))
  | officeTransmitDone => exact happens_books (f := Part.transmitDone) fun _ => rfl
  | coldReset byInput => exact fun ht => Host.Outcome.next.inj ht ▸ cold_keeps _ rfl rfl
  | floorGrant => exact happens_books floorGrant_books
  | missSilenceEnd => exact happens_books (f := Part.silenceEnd) fun _ => rfl
  | answerWindowExpiry begun => exact happens_books (windowExpiry_books · begun)
  | badAnswer bytes => exact happens_keeps (badAnswer_keeps · bytes)
  | cranePollAnswer address x y hookLow loaded event => exact happens_keeps (answered_keeps · _ _)
  | gantryPollAnswer address events => exact happens_keeps (answered_keeps · _ _)
  | answerAck address => exact happens_keeps (answered_keeps · _ _)
  | answerRefuse address code => exact happens_keeps (answered_keeps · _ _)
  | passthroughAnswer address kind payload => exact happens_keeps (answered_keeps · _ _)
  | duePollRaise crane => exact happens_books (raiseDuePoll_books · crane)
  | positionTimeout crane => exact happens_books fun p => ite_books (loseCrane_books ..) rfl
  | reportAgeTick => exact happens_books (f := Part.tick) fun _ => rfl
  | officeLengthDrop bytes => exact happens_books (receive_books · bytes)
  | resetInputRelease => exact fun ht => Host.Outcome.next.inj ht ▸ .ite (cold_keeps _ rfl rfl) (.refl _)

/-- Settles O59: each step runs one command, or idles (log 1). -/
theorem remnantNumbersStayDistinct : Obligations.RemnantNumbersStayDistinct := by
  intro s t hstep
  have hk : Keeps s.part t.part := by
    unfold step at hstep
    split at hstep
    · obtain rfl := Host.Outcome.next.inj hstep
      exact .refl _
    · next c rest _ => exact exec_keeps c (s := { s with pending := rest }) hstep
  exact ⟨hk.remnants, hk.queues⟩

end Sys2Proof.Machine.OrderBooks
end

section
/-! PROOFS. Orders behind the head of a queue (chapters 8 and 9): CRANE ORDER and STORE place one at the tail, CRANE ORDER CANCEL takes
one out, and the head is not evaluated. -/

namespace Sys2Proof.Machine.CraneOrders

open EngineDispatch

/-! ## Placing behind a head (R124, R125) -/

/-- The part with an order in a record and at the tail of its crane's queue. -/
def queued (p : Part) (n : OrderNo) (o : Order) : Part := (p.setOrder n (some o)).setOrderQueue o.crane (p.orderQueue o.crane ++ [n])

/-- The record is free, and no lower-numbered one is (R124). -/
structure LowestFree (p : Part) (n : OrderNo) : Prop where
  free : p.order n = none
  lowest : ∀ k : OrderNo, k < n → p.order k ≠ none

theorem LowestFree.freeOrder {p : Part} {n : OrderNo} (h : LowestFree p n) : p.freeOrder = some n :=
  find_first (by simp [h.free]) fun k hk => by simpa [Option.isSome_iff_ne_none] using h.lowest k hk

theorem LowestFree.freeOrders_pos {p : Part} {n : OrderNo} (h : LowestFree p n) : 1 ≤ p.freeOrders :=
  List.length_pos_of_mem (a := n) (List.mem_filter.2 ⟨List.mem_ofFn.2 ⟨n, rfl⟩, by simp [h.free]⟩)

/-- An order behind others hands nothing on. -/
theorem placeOrder_behind {p : Part} {n : OrderNo} {o : Order} (hn : LowestFree p n) (hq : p.orderQueue o.crane ≠ []) :
    p.placeOrder o = some (queued p n o, n) := by
  have hq' : (p.orderQueue o.crane).isEmpty = false := by simpa using hq
  simp only [Part.placeOrder, hn.freeOrder, hq', Bool.false_eq_true, if_false]
  rfl

theorem placeList_behind {p : Part} {n : OrderNo} {o : Order} (hn : LowestFree p n) (hq : p.orderQueue o.crane ≠ [])
    (hlen : (p.orderQueue o.crane).length < orderQueueCapacity) : p.placeList o.crane [o] = .ok (queued p n o, [n]) := by
  have hfree : ¬ p.freeOrders < [o].length := Nat.not_lt.2 hn.freeOrders_pos
  have hroom : ¬ orderQueueCapacity < (p.orderQueue o.crane).length + [o].length := Nat.not_lt.2 hlen
  rw [Part.placeList, if_neg hfree, if_neg hroom]
  simp only [Part.placeOrders, placeOrder_behind hn hq]

/-! ## CRANE ORDER (R123, R124) -/

/-- An order of the supervisor as it is placed. -/
def officeOrder (tag : Nat) (c : Crane) (source destination : Place) (load : Load) : Order :=
  { crane := c, origin := .office, source := source, destination := destination, load := load, requestTag := some tag }

theorem craneOrder_accepted {p : Part} {tag : Nat} {c : Crane} {n : OrderNo} {x y : RawPlace} {z : RawTag} {source destination : Place}
    {load : Load} (hx : place? x = some source) (hy : place? y = some destination) (hz : load? z = some load)
    (hcomb : combinationOk source destination load = true) (hsource : p.placeUsable c source = true)
    (hdest : p.placeUsable c destination = true) (hn : LowestFree p n) (hq : p.orderQueue c ≠ [])
    (hlen : (p.orderQueue c).length < orderQueueCapacity) :
    craneOrder p tag c x y z
      = (queued p n (officeOrder tag c source destination load), .ok, .orderPlaced n ((p.orderQueue c).length + 1)) := by
  have hplace := placeOrder_behind (o := officeOrder tag c source destination load) hn hq
  unfold officeOrder at hplace ⊢
  unfold craneOrder
  rw [indexed_val, hx, hy, hz]
  dsimp only
  rw [checked_passed (by simp [hcomb, hsource, hdest, hn.freeOrder, hlen])]
  rw [hplace]

/-- Settles O19: behind a head, a placed order hands nothing on. -/
theorem craneOrderIsPlaced : Obligations.CraneOrderIsPlaced := by
  intro s tag c n x y z source destination load hready hx hy hz hcomb hsource hdest hfree hlow hq hlen
  exact answers_plain hready rfl
    (craneOrder_accepted (p := s.part.taking) hx hy hz hcomb hsource hdest ⟨hfree, hlow⟩ hq hlen) hready.1.2.1 rfl

/-! ## STORE (R152, R153) -/

/-- The order by which a remnant is stored, as it is placed. -/
def storeOrder (tag n : Nat) (c : Crane) (b : Bed) (k : SlotNo) : Order :=
  { crane := c, origin := .stock, source := .bed b, destination := .slot k, load := .plate ⟨.remnant, n⟩, requestTag := some tag }

theorem store_accepted {p : Part} {tag n : Nat} {r : Remnant} {b : Bed} {c : Crane} {k : SlotNo} {m : OrderNo}
    (hr : p.remnant n = some r) (hloc : r.location = .bed b) (hstate : r.state = .free) (hheld : (p.bed b).held = false)
    (horders : p.remnantInOrders n = false) (hc : p.rackCrane = some c) (hroom : p.rsu.digReserve < p.freeRackPlaces)
    (hk : p.slotChoice r.width r.length [] [] = some k) (hm : LowestFree p m) (hq : p.orderQueue c ≠ [])
    (hlen : (p.orderQueue c).length < orderQueueCapacity) :
    store p tag n = (queued p m (storeOrder tag n c b k), .ok, .stored m k) := by
  have hplace := placeList_behind (o := storeOrder tag n c b k) hm hq hlen
  unfold storeOrder at hplace ⊢
  unfold store recorded
  rw [hr]
  dsimp only
  rw [hloc]
  dsimp only
  rw [checked_passed (by simp [hstate, hheld, horders, hc, hroom]), hc, hk]
  dsimp only
  rw [hplace]

/-- Settles O25: behind a head, a placed order hands nothing on. -/
theorem storePlacesAnOrderToTheRack : Obligations.StorePlacesAnOrderToTheRack := by
  intro s tag n r b c k m hready hr hloc hstate howner hclaim horders hc hroom hk hfree hlow hq hlen
  have hheld : (s.part.bed b).held = false := by simp [BedRec.held, howner, hclaim]
  exact answers_plain hready rfl
    (store_accepted (p := s.part.taking) hr hloc hstate hheld horders hc hroom hk ⟨hfree, hlow⟩ hq hlen) hready.1.2.1 rfl

/-! ## CRANE ORDER CANCEL (R135, R136) -/

/-- The part after the end of an order of the supervisor that waits for no bed: out of its queue, its record free, its notice given. -/
def orderCancelled (p : Part) (n : OrderNo) (o : Order) : Part :=
  ((p.setOrderQueue o.crane ((p.orderQueue o.crane).filter (· != n))).setOrder n none).notify
    (.craneOrder n o.crane .office o.source o.destination o.load .cancelled none o.requestTag)

theorem craneOrderCancel_accepted {p : Part} {n : OrderNo} {o : Order} (ho : p.order n = some o) (hs : o.state = .queued) :
    craneOrderCancel p n = accept (p.emit (.orderEnd n .cancelled none false)) := by
  unfold craneOrderCancel
  rw [indexed_val, ho]
  exact if_pos (.inl hs)

theorem orderEnd_cancelled {p : Part} {n : OrderNo} {o : Order} (ho : p.order n = some o) (horigin : o.origin = .office)
    (hw : o.waiting = false) :
    p.orderEnd n .cancelled none false
      = (orderCancelled p n o).emit (.evalNewHead o.crane (p.orderQueue o.crane).head?) := by
  have hclaim : p.withdrawClaim n o = p := by simp [Part.withdrawClaim, hw]
  unfold Part.orderEnd
  rw [ho]
  dsimp only
  rw [hclaim, horigin, if_neg (by decide), if_neg (by decide)]
  rfl

/-- A number that is not at the head leaves the head where it is. -/
theorem head?_filter_ne {n : OrderNo} {q : List OrderNo} (h : q.head? ≠ some n) : (q.filter (· != n)).head? = q.head? := by
  cases q with
  | nil => rfl
  | cons m q =>
      have hm : m ≠ n := by simpa using h
      rw [List.filter_cons_of_pos (by simpa using hm)]
      rfl

theorem evalNewHead_same {p : Part} {c : Crane} {before : Option OrderNo} (h : (p.orderQueue c).head? = before) :
    p.evalNewHead c before = p := if_pos h

/-- The end of an order behind the head leaves the head unevaluated. -/
theorem orderEnd_settled {p : Part} {n : OrderNo} {o : Order} (ha : p.agenda = []) (ho : p.order n = some o)
    (horigin : o.origin = .office) (hw : o.waiting = false) (hhead : (p.orderQueue o.crane).head? ≠ some n) :
    (p.emit (.orderEnd n .cancelled none false)).settled = orderCancelled p n o := by
  refine Part.settled_eq 2 (by decide) ?_ ha
  have hsame : ((orderCancelled p n o).orderQueue o.crane).head? = (p.orderQueue o.crane).head? := by
    simpa [orderCancelled] using head?_filter_ne hhead
  calc settle 2 (p.emit (.orderEnd n .cancelled none false))
      = settle 1 (p.orderEnd n .cancelled none false) := settle_emit 1 _ ha
    _ = settle 1 ((orderCancelled p n o).emit (.evalNewHead o.crane (p.orderQueue o.crane).head?)) := by
          rw [orderEnd_cancelled ho horigin hw]
    _ = settle 0 ((orderCancelled p n o).evalNewHead o.crane (p.orderQueue o.crane).head?) := settle_emit 0 _ ha
    _ = orderCancelled p n o := evalNewHead_same hsame

/-- The waiting place does not matter to a notice. -/
theorem notify_taking (p : Part) (x : Notice) : p.taking.notify x = (p.notify x).taking := by
  unfold Part.notify OfficePort.notify
  dsimp only
  split <;> rfl

theorem orderCancelled_taking (p : Part) (n : OrderNo) (o : Order) : orderCancelled p.taking n o = (orderCancelled p n o).taking :=
  notify_taking ((p.setOrderQueue o.crane ((p.orderQueue o.crane).filter (· != n))).setOrder n none) _

/-- Settles O21: the order's end is the one hand-off that acts. -/
theorem craneOrderCancelEndsTheOrder : Obligations.CraneOrderCancelEndsTheOrder := by
  intro s tag n o hready ho hs horigin hw hhead
  refine answers_settled hready rfl (craneOrderCancel_accepted (p := s.part.taking) ho hs)
    ((orderEnd_settled (p := s.part.taking) hready.1.2.1 ho horigin hw hhead).trans ?_) ?_ ?_
  · exact orderCancelled_taking ..
  · simp
  · simp

end Sys2Proof.Machine.CraneOrders
end

section
/-! PROOFS. The requests on single remnants (9.4): what a request refuses, what a change of a record or of a slot hands on, and what
REMNANT ENTER, RELOCATE, REMOVE and UNRESERVE leave. -/

namespace Sys2Proof.Machine.RemnantStock

open CranePresence EngineDispatch

/-! ## The record a number names (R139) -/

theorem remnant_eq_none {p : Part} {n : Nat} (h : ∀ r ∈ p.rsu.remnants, r.number ≠ n) : p.remnant n = none := by
  simpa [Part.remnant] using h

theorem remnant_mem {p : Part} {n : Nat} {r : Remnant} (h : p.remnant n = some r) : r ∈ p.rsu.remnants := List.mem_of_find?_eq_some h

theorem remnant_number {p : Part} {n : Nat} {r : Remnant} (h : p.remnant n = some r) : r.number = n := by
  simpa using List.find?_some h

/-- A record of the table is found by its number, if only as one that shares it. -/
theorem remnant_of_mem {p : Part} {r : Remnant} (h : r ∈ p.rsu.remnants) : ∃ x, p.remnant r.number = some x :=
  Option.isSome_iff_exists.1 (List.find?_isSome.2 ⟨r, h, by simp⟩)

/-- Where the numbers are distinct, two records of one number are the same. -/
theorem eq_of_number {l : List Remnant} (hd : (l.map Remnant.number).Nodup) {r x : Remnant} (hr : r ∈ l) (hx : x ∈ l)
    (h : x.number = r.number) : x = r := by
  induction l with
  | nil => exact absurd hr List.not_mem_nil
  | cons a l ih =>
      rw [List.map_cons, List.nodup_cons] at hd
      obtain ⟨hnew, hd⟩ := hd
      rcases List.mem_cons.1 hr with hra | hrl
      · rcases List.mem_cons.1 hx with hxa | hxl
        · rw [hxa, hra]
        · exact absurd (by rw [← hra, ← h]; exact List.mem_map_of_mem hxl) hnew
      · rcases List.mem_cons.1 hx with hxa | hxl
        · exact absurd (by rw [← hxa, h]; exact List.mem_map_of_mem hrl) hnew
        · exact ih hd hrl hxl

/-- Where the numbers are distinct, the record found is the only one of its number. -/
theorem remnant_unique {p : Part} {n : Nat} {r x : Remnant} (hd : (p.rsu.remnants.map Remnant.number).Nodup)
    (h : p.remnant n = some r) (hx : x ∈ p.rsu.remnants) (hn : x.number = n) : x = r :=
  eq_of_number hd (remnant_mem h) hx (hn.trans (remnant_number h).symm)

/-! ## Refusals -/

theorem recorded_some {p : Part} {n : Nat} {r : Remnant} (h : p.remnant n = some r) (body : Remnant → Answered) :
    recorded p n body = body r := by
  simp only [recorded, h]

theorem recorded_none {p : Part} {n : Nat} (h : ∀ r ∈ p.rsu.remnants, r.number ≠ n) (body : Remnant → Answered) :
    recorded p n body = refuse p .notFound := by
  simp only [recorded, remnant_eq_none h]

/-- The checks that hold do not matter to a refusal. -/
theorem checked_failed {checks : List (Bool × Reason)} {code : Reason} (h : firstFailure checks = code) (hc : code ≠ .ok) (p : Part)
    (body : Answered) : checked p checks body = refuse p code := by
  unfold checked
  rw [h]
  split
  · exact absurd rfl hc
  · rfl

/-- A request its owner refuses. -/
theorem answers_refused {c : Instr} {s : State} {kind tag : Nat} {owner : Part → Answered} {code : Reason} (h : Ready c s.part)
    (hx : exec c s = s.serve c kind tag owner) (ho : owner s.part.taking = refuse s.part.taking code) :
    Answers c s { kind := kind, tag := tag, code := code } s.part :=
  answers_plain h hx ho h.1.2.1 rfl

/-! ## Reports that concern no head (R128, R144) -/

/-- The hand-off reports a record or a slot that no order at the head of a queue names. -/
def Unheard (p : Part) : Task → Prop
  | .remnantReport n => HeadsQuiet p (fun o => o.load.remnant? == some n)
  | .slotReport k => HeadsQuiet p (fun o => o.source == .slot k || o.destination == .slot k)
  | _ => False

/-- An unheard report changes nothing, as long as the orders are the same. -/
theorem Unheard.idle {p q : Part} {t : Task} (h : Unheard p t) (he : q.cou = p.cou) : q.Idle t := by
  cases t with
  | remnantReport n => exact Part.idle_remnantReport (HeadsQuiet.congr h he)
  | slotReport k => exact Part.idle_slotReport (HeadsQuiet.congr h he)
  | _ => exact h.elim

/-- A request whose owner hands on nothing but unheard reports. -/
theorem answers_unheard {c : Instr} {s : State} {kind tag : Nat} {owner : Part → Answered} {q : Part} {ts : List Task} {code : Reason}
    {body : ReplyBody} (h : Ready c s.part) (hx : exec c s = s.serve c kind tag owner)
    (ho : owner s.part.taking = (q.taking.emits ts, code, body)) (hts : ∀ t ∈ ts, Unheard s.part t) (hk : ts.length ≤ 1000)
    (ha : q.agenda = s.part.agenda) (hc : q.cou = s.part.cou) (hofp : q.ofp = s.part.ofp) :
    Answers c s { kind := kind, tag := tag, code := code, body := body } q :=
  answers_settled h hx ho (Part.settled_emits_idle (ha.trans h.1.2.1) hk fun t ht => (hts t ht).idle hc) (by rw [hofp]) (by rw [hofp])

/-! ## A record changed -/

theorem changeRemnant_some {p : Part} {n : Nat} {r : Remnant} (h : p.remnant n = some r) (f : Remnant → Remnant) :
    p.changeRemnant n f
      = (p.setRemnants (updateWhere (·.number == n) f p.rsu.remnants)).emits (.remnantReport n :: r.stateReport (f r)) := by
  simp only [Part.changeRemnant, h]

/-- A changed record whose state is the same is reported without its slot. -/
theorem changeRemnant_same {p : Part} {n : Nat} {r : Remnant} (h : p.remnant n = some r) {f : Remnant → Remnant}
    (hs : r.state = (f r).state) :
    p.changeRemnant n f = (p.setRemnants (updateWhere (·.number == n) f p.rsu.remnants)).emits [.remnantReport n] := by
  have hnone : r.stateReport (f r) = [] := by
    unfold Remnant.stateReport
    split
    · exact if_pos hs
    · rfl
  rw [changeRemnant_some h, hnone]

/-- A changed record that stays where it lies has at most its slot reported. -/
theorem stateReport_slot {r x : Remnant} {t : Task} (hl : x.location = r.location) (h : t ∈ r.stateReport x) :
    ∃ k level, r.location = .slot k level ∧ t = .slotReport k := by
  unfold Remnant.stateReport at h
  split at h
  next k level hx =>
    split at h
    · simp at h
    · exact ⟨k, level, hl.symm.trans hx, List.mem_singleton.1 h⟩
  next => simp at h

/-- A changed record has no more than one slot reported. -/
theorem stateReport_length (r x : Remnant) : (r.stateReport x).length ≤ 1 := by
  unfold Remnant.stateReport
  split
  · split <;> simp
  · simp

/-- A request that changes a record where it lies, when neither its report nor that of its slot is heard. -/
theorem answers_changed {c : Instr} {s : State} {kind tag : Nat} {owner : Part → Answered} {q : Part} {n : Nat} {r x : Remnant}
    {code : Reason} {body : ReplyBody} (h : Ready c s.part) (hx : exec c s = s.serve c kind tag owner)
    (ho : owner s.part.taking = (q.taking.emits (.remnantReport n :: r.stateReport x), code, body)) (hl : x.location = r.location)
    (hn : Unheard s.part (.remnantReport n)) (hk : ∀ k level, r.location = .slot k level → Unheard s.part (.slotReport k))
    (ha : q.agenda = s.part.agenda) (hc : q.cou = s.part.cou) (hofp : q.ofp = s.part.ofp) :
    Answers c s { kind := kind, tag := tag, code := code, body := body } q := by
  refine answers_unheard h hx ho (List.forall_mem_cons.2 ⟨hn, fun t ht => ?_⟩) ?_ ha hc hofp
  · obtain ⟨k, level, hr, rfl⟩ := stateReport_slot hl ht
    exact hk k level hr
  · have := stateReport_length r x
    rw [List.length_cons]
    omega

/-! ## REMNANT UNRESERVE (R151) -/

theorem unreserve_location (r : Remnant) : r.unreserve.location = r.location := by
  unfold Remnant.unreserve
  split <;> rfl

/-- Of distinct numbers, only the RESERVED record is changed. -/
theorem updateWhere_unreserve {p : Part} {n : Nat} {r : Remnant} (hd : (p.rsu.remnants.map Remnant.number).Nodup)
    (h : p.remnant n = some r) (hs : r.state = .reserved) :
    updateWhere (·.number == n) Remnant.unreserve p.rsu.remnants
      = p.rsu.remnants.map (fun x => if x.number = n then { x with state := .free, reservation := none } else x) := by
  refine List.map_congr_left fun x hx => ?_
  by_cases hn : x.number = n
  · obtain rfl := remnant_unique hd h hx hn
    simp [hn, Remnant.unreserve, hs]
  · simp [hn]

/-- Settles O24: the record is the one of its number, and its reports are unheard. -/
theorem remnantUnreserveFreesTheRecord : Obligations.RemnantUnreserveFreesTheRecord := by
  refine fun s tag n hready => ⟨fun h => ?none, fun r h hs => ?state, fun r h hs hd hn hk => ?freed⟩
  case none => exact answers_refused hready rfl (recorded_none (p := s.part.taking) h _)
  case state =>
    refine answers_refused hready rfl ((recorded_some (p := s.part.taking) h _).trans (checked_failed ?_ (by decide) _ _))
    simp [firstFailure, hs]
  case freed =>
    have howner : remnantUnreserve s.part.taking n
        = accept ((s.part.setRemnants (s.part.rsu.remnants.map (fun x =>
            if x.number = n then { x with state := .free, reservation := none } else x))).taking.emits
              (.remnantReport n :: r.stateReport r.unreserve)) := by
      unfold remnantUnreserve
      rw [recorded_some (p := s.part.taking) h, checked_passed (by simp [hs]), changeRemnant_some (p := s.part.taking) h,
        updateWhere_unreserve (p := s.part.taking) hd h hs]
      rfl
    exact answers_changed hready rfl howner (unreserve_location r) hn hk rfl rfl rfl

/-! ## REMNANT REMOVE (R144, R149) -/

theorem remnantGone_some {p : Part} {n : Nat} {r : Remnant} (h : p.remnant n = some r) :
    p.remnantGone n = (p.setRemnants (p.rsu.remnants.filter (·.number != n))).emits [.remnantReport n] := by
  simp only [Part.remnantGone, h, Option.isSome_some, if_true]
  rfl

/-- A slot changed and a record removed, both reported. -/
theorem changeSlot_remnantGone {p : Part} {n : Nat} {r : Remnant} (h : p.remnant n = some r) (k : SlotNo) (f : SlotRec → SlotRec) :
    (p.changeSlot k f).remnantGone n
      = ((p.setSlot k (f (p.slot k))).setRemnants (p.rsu.remnants.filter (·.number != n))).emits
          [.slotReport k, .remnantReport n] :=
  (remnantGone_some (p := p.changeSlot k f) h).trans
    (emit_emits ((p.setSlot k (f (p.slot k))).setRemnants (p.rsu.remnants.filter (·.number != n))) _ _)

/-- The record is in transit or the load of an order in use (log 47). -/
def Moving (p : Part) (n : Nat) (r : Remnant) : Prop := r.state = .inTransit ∨ p.remnantInOrders n = true

/-- The record lies in a slot and not at its top (R144). -/
def Below (p : Part) (n : Nat) (r : Remnant) : Prop := ∃ k level, r.location = .slot k level ∧ (p.slot k).stack.getLast? ≠ some n

/-- The place the record lies in is held (R149). -/
def InHeldPlace (p : Part) (r : Remnant) : Prop :=
  (∃ k level, r.location = .slot k level ∧ (p.slot k).claim ≠ none)
    ∨ ∃ b, r.location = .bed b ∧ ((p.bed b).owner ≠ none ∨ (p.bed b).claim ≠ none)

/-- The part with a record's place in its stack removed, before the record itself. -/
def outOfStack (p : Part) (r : Remnant) : Part :=
  match r.location with
  | .slot k _ => p.changeSlot k SlotRec.pop
  | _ => p

theorem outOfStack_slot {p : Part} {r : Remnant} {k : SlotNo} {level : Nat} (h : r.location = .slot k level) :
    outOfStack p r = p.changeSlot k SlotRec.pop := by
  simp only [outOfStack, h]

theorem outOfStack_elsewhere {p : Part} {r : Remnant} (h : ∀ k level, r.location ≠ .slot k level) : outOfStack p r = p := by
  unfold outOfStack
  split
  next k level hl => exact absurd hl (h k level)
  next => rfl

/-- The three checks of the request, and what it does when they hold. -/
theorem remnantRemove_checked {p : Part} {n : Nat} {r : Remnant} (h : p.remnant n = some r) :
    ∃ still top free : Bool, (still = true ↔ ¬ Moving p n r) ∧ (top = true ↔ ¬ Below p n r) ∧ (free = true ↔ ¬ InHeldPlace p r)
      ∧ remnantRemove p n
        = checked p [(still, .inUse), (top, .state), (free, .inUse)] (accept ((outOfStack p r).remnantGone n)) := by
  unfold remnantRemove outOfStack
  rw [recorded_some h]
  refine ⟨_, _, _, ?still, ?top, ?free, rfl⟩
  case still => simp [Moving]
  case top => cases hl : r.location <;> simp [Below, hl, SlotRec.top]
  case free => cases hl : r.location <;> simp [InHeldPlace, hl, BedRec.held]

theorem remnantRemove_moving {p : Part} {n : Nat} {r : Remnant} (h : p.remnant n = some r) (hm : Moving p n r) :
    remnantRemove p n = refuse p .inUse := by
  obtain ⟨still, top, free, hstill, -, -, heq⟩ := remnantRemove_checked h
  have hs : still = false := by simpa [hm] using hstill
  exact heq.trans (checked_failed (by simp [firstFailure, hs]) (by decide) p _)

theorem remnantRemove_below {p : Part} {n : Nat} {r : Remnant} (h : p.remnant n = some r) (hm : ¬ Moving p n r) (hb : Below p n r) :
    remnantRemove p n = refuse p .state := by
  obtain ⟨still, top, free, hstill, htop, -, heq⟩ := remnantRemove_checked h
  have ht : top = false := by simpa [hb] using htop
  exact heq.trans (checked_failed (by simp [firstFailure, hstill.2 hm, ht]) (by decide) p _)

theorem remnantRemove_held {p : Part} {n : Nat} {r : Remnant} (h : p.remnant n = some r) (hm : ¬ Moving p n r) (hb : ¬ Below p n r)
    (hh : InHeldPlace p r) : remnantRemove p n = refuse p .inUse := by
  obtain ⟨still, top, free, hstill, htop, hfree, heq⟩ := remnantRemove_checked h
  have hf : free = false := by simpa [hh] using hfree
  exact heq.trans (checked_failed (by simp [firstFailure, hstill.2 hm, htop.2 hb, hf]) (by decide) p _)

theorem remnantRemove_accepted {p : Part} {n : Nat} {r : Remnant} (h : p.remnant n = some r) (hm : ¬ Moving p n r)
    (hb : ¬ Below p n r) (hh : ¬ InHeldPlace p r) : remnantRemove p n = accept ((outOfStack p r).remnantGone n) := by
  obtain ⟨still, top, free, hstill, htop, hfree, heq⟩ := remnantRemove_checked h
  exact heq.trans (checked_passed (by simp [hstill.2 hm, htop.2 hb, hfree.2 hh]) p _)

/-- Settles O23, check by check in the order of R149 and R144; a removal hands on unheard reports alone. -/
theorem remnantRemoveTakesTheRecordOut : Obligations.RemnantRemoveTakesTheRecordOut := by
  refine fun s tag n hready => ⟨fun h => ?none, fun r h => ⟨fun hm => ?moving, fun hm hb => ?below, fun hm hb hh => ?held,
    fun k level hm hb hh hl hn hk => ?slot, fun hm hh hl hn => ?elsewhere⟩⟩
  case none => exact answers_refused hready rfl (recorded_none (p := s.part.taking) h _)
  case moving => exact answers_refused hready rfl (remnantRemove_moving (p := s.part.taking) h hm)
  case below => exact answers_refused hready rfl (remnantRemove_below (p := s.part.taking) h hm hb)
  case held => exact answers_refused hready rfl (remnantRemove_held (p := s.part.taking) h hm hb hh)
  case slot =>
    have howner := remnantRemove_accepted (p := s.part.taking) h hm hb hh
    rw [outOfStack_slot hl, changeSlot_remnantGone (p := s.part.taking) h] at howner
    exact answers_unheard (ts := [.slotReport k, .remnantReport n]) hready rfl howner
      (List.forall_mem_cons.2 ⟨hk, List.forall_mem_singleton.2 hn⟩) (by simp) rfl rfl rfl
  case elsewhere =>
    have howner := remnantRemove_accepted (p := s.part.taking) h hm (fun ⟨k, level, hk, _⟩ => hl k level hk) hh
    rw [outOfStack_elsewhere hl, remnantGone_some (p := s.part.taking) h] at howner
    exact answers_unheard (ts := [.remnantReport n]) hready rfl howner (List.forall_mem_singleton.2 hn) (by simp) rfl rfl rfl

/-! ## A remnant put on a slot (R140) -/

/-- The part with a remnant at the top of a slot, and its record located there. -/
def stacked (p : Part) (k : SlotNo) (n : Nat) : Part :=
  (p.setSlot k { p.slot k with stack := (p.slot k).stack ++ [n] }).setRemnants
    (p.rsu.remnants.map (fun x => if x.number = n then { x with location := .slot k (p.slot k).stack.length } else x))

theorem putRemnant_slot {p : Part} {n : Nat} {r : Remnant} (h : p.remnant n = some r) (k : SlotNo) :
    p.putRemnant n (.inr k) = (stacked p k n).emits [.slotReport k, .remnantReport n] := by
  have hset := changeRemnant_same (p := p.changeSlot k fun x => { x with stack := x.stack ++ [n], claim := (p.slot k).claim }) h
    (f := fun x => { x with location := .slot k (p.slot k).stack.length }) rfl
  have hmap : updateWhere (·.number == n) (fun x => { x with location := .slot k (p.slot k).stack.length }) p.rsu.remnants
      = p.rsu.remnants.map (fun x => if x.number = n then { x with location := .slot k (p.slot k).stack.length } else x) := by
    simp only [updateWhere, beq_iff_eq]
  refine Eq.trans hset (Eq.trans ?_ (emit_emits (stacked p k n) _ _))
  rw [stacked, ← hmap]
  rfl

/-- Checks 3 to 6 of R148 on a slot that takes the piece. -/
theorem locationChecks_slot {p : Part} {k : SlotNo} {w l : Nat} (hc : (p.slot k).claim = none) (hl : (p.slot k).loaded = true)
    (hroom : p.committed k < 4) (hr : p.slotReserved k none = false) (ha : (p.slot k).admits w l = true) :
    ∀ c ∈ p.locationChecks w l (.inr k), c.1 = true := by
  simp [Part.locationChecks, hc, hl, hroom, hr, ha]

theorem location?_slot (k : SlotNo) : location? ⟨0, k⟩ = some (.inr k) := by
  simp [location?, fin?_val]

/-! ## REMNANT ENTER (R142, R148) -/

/-- The part with a record made with the raised sequence value (R142). -/
def recordAdded (p : Part) (r : Remnant) : Part :=
  { p with rsu := { p.rsu with
      sequence := p.rsu.sequence + 1, remnants := p.rsu.remnants ++ [{ r with number := p.rsu.sequence + 1 }] } }

/-- The number of a new record is no other's, so that it is found by it. -/
theorem recordAdded_remnant {p : Part} (h : ∀ x ∈ p.rsu.remnants, x.number ≤ p.rsu.sequence) (r : Remnant) :
    (recordAdded p r).remnant (p.rsu.sequence + 1) = some { r with number := p.rsu.sequence + 1 } := by
  have hnone : p.rsu.remnants.find? (·.number == p.rsu.sequence + 1) = none :=
    remnant_eq_none (p := p) fun x hx => by have := h x hx; omega
  simp [Part.remnant, recordAdded, List.find?_append, hnone]

/-- A new record put on a slot, its number being no other's. -/
theorem stacked_recordAdded {p : Part} (h : ∀ x ∈ p.rsu.remnants, x.number ≤ p.rsu.sequence) (r : Remnant) (k : SlotNo) :
    stacked (recordAdded p r) k (p.rsu.sequence + 1)
      = { p with rsu := { p.rsu with
            sequence := p.rsu.sequence + 1,
            remnants := p.rsu.remnants
              ++ [{ r with number := p.rsu.sequence + 1, location := .slot k (p.slot k).stack.length }],
            slots := put p.rsu.slots k { p.slot k with stack := (p.slot k).stack ++ [p.rsu.sequence + 1] } } } := by
  have hold : p.rsu.remnants.map (fun x =>
      if x.number = p.rsu.sequence + 1 then { x with location := .slot k (p.slot k).stack.length } else x) = p.rsu.remnants := by
    refine (List.map_congr_left fun x hx => if_neg ?_).trans (List.map_id _)
    have := h x hx
    omega
  have hslot : (recordAdded p r).slot k = p.slot k := rfl
  simp only [stacked, hslot, Part.setSlot, Part.setRemnants]
  simp only [recordAdded, List.map_append, hold, List.map_cons, List.map_nil, if_true]

theorem createRemnant_putRemnant {p : Part} (h : ∀ x ∈ p.rsu.remnants, x.number ≤ p.rsu.sequence) (r : Remnant) (k : SlotNo) :
    (p.createRemnant r).putRemnant (p.rsu.sequence + 1) (.inr k)
      = (stacked (recordAdded p r) k (p.rsu.sequence + 1)).emits
          [.remnantReport (p.rsu.sequence + 1), .slotReport k, .remnantReport (p.rsu.sequence + 1)] :=
  (putRemnant_slot (p := p.createRemnant r) (recordAdded_remnant h r) k).trans
    (emit_emits (stacked (recordAdded p r) k (p.rsu.sequence + 1)) _ _)

/-- The ranges of the sides, the grade and the thickness of a remnant put in by hand (R148). -/
structure EntryFits (grade thickness width length : Nat) : Prop where
  grade : grade ≤ 15
  thin : 30 ≤ thickness
  thick : thickness ≤ 1500
  widthLow : 1 ≤ width
  widthHigh : width ≤ 24000
  lengthLow : 1 ≤ length
  lengthHigh : length ≤ 24000

/-- The record of such a remnant, before it has its number and its place. -/
def entered (grade thickness width length : Nat) (heat : Option (List Byte)) : Remnant :=
  { number := 0, grade := grade, thickness := thickness, width := width, length := length, heat := heat, location := .unknown }

theorem remnantEnter_accepted {p : Part} {grade thickness width length heatLength : Nat} {chars : List Byte}
    {heat : Option (List Byte)} {k : SlotNo} (hf : EntryFits grade thickness width length) (hheat : heat? heatLength chars = some heat)
    (hlen : p.rsu.remnants.length < 128) (hseq : p.rsu.sequence < 4294967295)
    (hloc : ∀ c ∈ p.locationChecks width length (.inr k), c.1 = true) :
    remnantEnter p grade thickness width length heatLength chars ⟨0, k⟩
      = ((p.createRemnant (entered grade thickness width length heat)).putRemnant (p.rsu.sequence + 1) (.inr k), .ok,
          .remnantNumber (p.rsu.sequence + 1)) := by
  obtain ⟨hg, ht, ht', hw, hw', hl, hl'⟩ := hf
  unfold remnantEnter
  rw [hheat, location?_slot]
  dsimp only
  refine checked_passed (fun c hc => ?_) _ _
  rcases List.mem_append.1 hc with hc | hc
  · revert c
    simp [within, hg, ht, ht', hw, hw', hl, hl', Stock.canCreate, remnantCapacity, sequenceEnd, hlen, hseq]
  · exact hloc c hc

/-! ## REMNANT RELOCATE (R150) -/

theorem remnantRelocate_accepted {p : Part} {n : Nat} {r : Remnant} {k : SlotNo} (h : p.remnant n = some r)
    (hl : r.location = .unknown) (hb : ∀ b : Bed, (p.bed b).plate ≠ some ⟨.remnant, n⟩)
    (hloc : ∀ c ∈ p.locationChecks r.width r.length (.inr k), c.1 = true) :
    remnantRelocate p n ⟨0, k⟩ = accept (p.putRemnant n (.inr k)) := by
  unfold remnantRelocate
  rw [recorded_some h, location?_slot]
  exact checked_passed (List.forall_mem_cons.2 ⟨by simp [hl, Part.remnantOnBed, hb], hloc⟩) _ _

/-- Settles O22: the slot takes the piece by checks 3 to 6 of R148, and the reports are unheard. -/
theorem aRemnantIsPutOnASlot : Obligations.ARemnantIsPutOnASlot := by
  intro s tag k hclaim hloaded hroom hres hk
  refine ⟨fun grade thickness width length heatLength chars heat hready hnum hg ht ht' hw hw' hl hl' hheat hadm hlen hseq hn => ?enter,
    fun n r hready h hl hb hadm hn => ?relocate⟩
  case enter =>
    have howner := remnantEnter_accepted (p := s.part.taking) ⟨hg, ht, ht', hw, hw', hl, hl'⟩ hheat hlen hseq
      (locationChecks_slot (p := s.part.taking) hclaim hloaded hroom hres hadm)
    rw [createRemnant_putRemnant (p := s.part.taking) hnum, stacked_recordAdded (p := s.part.taking) hnum] at howner
    exact answers_unheard hready rfl howner
      (List.forall_mem_cons.2 ⟨hn, List.forall_mem_cons.2 ⟨hk, List.forall_mem_singleton.2 hn⟩⟩) (by simp) rfl rfl rfl
  case relocate =>
    have howner := remnantRelocate_accepted (p := s.part.taking) h hl hb
      (locationChecks_slot (p := s.part.taking) hclaim hloaded hroom hres hadm)
    rw [putRemnant_slot (p := s.part.taking) h] at howner
    exact answers_unheard hready rfl howner (List.forall_mem_cons.2 ⟨hk, List.forall_mem_singleton.2 hn⟩) (by simp) rfl rfl rfl

end Sys2Proof.Machine.RemnantStock
end

section
/-! PROOFS. The choices of the stock (9.5, 9.6): the slot of a piece, the fit of a record and its restacking, the winner, and what
REMNANT REQUEST leaves when nothing fits or the winner lies free. -/

namespace Sys2Proof.Machine.StockChoices

open EngineDispatch RemnantStock

/-! ## The first of the least -/

theorem leastBy_eq_none {α : Type} {key : α → Nat} {l : List α} : leastBy key l = none ↔ l = [] := by
  cases l with
  | nil => simp [leastBy]
  | cons a l =>
      unfold leastBy
      split
      · split <;> simp
      · simp

/-- What is chosen has a lesser key than all before it, and no greater than any behind it. -/
theorem leastBy_split {α : Type} {key : α → Nat} {l : List α} {a : α} (h : leastBy key l = some a) :
    ∃ before after, l = before ++ a :: after ∧ (∀ x ∈ before, key a < key x) ∧ ∀ x ∈ after, key a ≤ key x := by
  induction l generalizing a with
  | nil => simp [leastBy] at h
  | cons b l ih =>
      unfold leastBy at h
      split at h
      next c hc =>
        obtain ⟨before, after, hl, hbefore, hafter⟩ := ih hc
        split at h
        next hlt =>
          obtain rfl := Option.some.inj h
          exact ⟨b :: before, after, by simp [hl], List.forall_mem_cons.2 ⟨hlt, hbefore⟩, hafter⟩
        next hle =>
          obtain rfl := Option.some.inj h
          refine ⟨[], l, rfl, by simp, fun x hx => ?_⟩
          rw [hl, List.mem_append, List.mem_cons] at hx
          rcases hx with hx | rfl | hx
          · have := hbefore x hx; omega
          · omega
          · have := hafter x hx; omega
      next hc =>
        obtain rfl := Option.some.inj h
        exact ⟨[], l, rfl, by simp, by simp [leastBy_eq_none.1 hc]⟩

/-- In a rising list, what is chosen is the lowest of those with the least key. -/
theorem leastBy_of_sorted {n : Nat} {key : Fin n → Nat} {l : List (Fin n)} (hl : l.Pairwise (· < ·)) {k : Fin n}
    (h : leastBy key l = some k) : k ∈ l ∧ ∀ x ∈ l, key k < key x ∨ (key k = key x ∧ k ≤ x) := by
  obtain ⟨before, after, rfl, hbefore, hafter⟩ := leastBy_split h
  have hrise : ∀ x ∈ after, k < x := (List.pairwise_cons.1 (List.pairwise_append.1 hl).2.1).1
  refine ⟨by simp, fun x hx => ?_⟩
  rw [List.mem_append, List.mem_cons] at hx
  rcases hx with hx | rfl | hx
  · exact .inl (hbefore x hx)
  · exact .inr ⟨rfl, Nat.le_refl x.val⟩
  · exact (Nat.lt_or_eq_of_le (hafter x hx)).imp_right fun he => ⟨he, Nat.le_of_lt (hrise x hx)⟩

theorem leastBy_eq_some_of_sorted {n : Nat} {key : Fin n → Nat} {l : List (Fin n)} (hl : l.Pairwise (· < ·)) {k : Fin n} :
    leastBy key l = some k ↔ k ∈ l ∧ ∀ x ∈ l, key k < key x ∨ (key k = key x ∧ k ≤ x) := by
  refine ⟨leastBy_of_sorted hl, fun ⟨hk, hleast⟩ => ?_⟩
  obtain ⟨m, hm⟩ : ∃ m, leastBy key l = some m :=
    Option.ne_none_iff_exists'.1 fun hnone => by simp [leastBy_eq_none.1 hnone] at hk
  obtain ⟨hmem, hleast'⟩ := leastBy_of_sorted hl hm
  have hle := hleast m hmem
  have hge := hleast' k hk
  have : m = k := by omega
  rw [hm, this]

/-! ## The slot choice (R152) -/

theorem allSlots_sorted : allSlots.Pairwise (· < ·) := by
  rw [List.pairwise_iff_getElem]
  intro i j hi hj hij
  simpa only [allSlots, List.getElem_ofFn, id_eq, Fin.mk_lt_mk] using hij

theorem mem_allSlots (k : SlotNo) : k ∈ allSlots := List.mem_ofFn.2 ⟨k, rfl⟩

/-- The slot may take a piece of these sides in a plan that has chosen these slots (R152). -/
def MayTake (p : Part) (w l : Nat) (excluded chosen : List SlotNo) (k : SlotNo) : Prop :=
  (p.slot k).loaded = true ∧ k ∉ excluded ∧ p.committed k + chosen.count k < 4 ∧ (p.slot k).claim = none
    ∧ (∀ n ∈ (p.slot k).stack, ∀ r, p.remnant n = some r → r.state ≠ .reserved)
    ∧ ∃ mw ml, (p.slot k).maxima = some (mw, ml) ∧ ((w ≤ mw ∧ l ≤ ml) ∨ (w ≤ ml ∧ l ≤ mw))

/-- A number without a record is not RESERVED (log 52). -/
theorem slotReserved_eq_false {p : Part} {k : SlotNo} :
    p.slotReserved k none = false ↔ ∀ n ∈ (p.slot k).stack, ∀ r, p.remnant n = some r → r.state ≠ .reserved := by
  simp [Part.slotReserved, Option.any_eq_false]

theorem admits_iff {r : SlotRec} {w l : Nat} :
    r.admits w l = true ↔ ∃ mw ml, r.maxima = some (mw, ml) ∧ ((w ≤ mw ∧ l ≤ ml) ∨ (w ≤ ml ∧ l ≤ mw)) := by
  unfold SlotRec.admits
  split
  next mw ml h =>
    simp only [Bool.or_eq_true, Bool.and_eq_true, decide_eq_true_eq]
    refine ⟨fun hfits => ⟨mw, ml, h, hfits⟩, ?_⟩
    rintro ⟨mw', ml', h', hfits⟩
    obtain ⟨rfl, rfl⟩ := Prod.mk.inj (Option.some.inj (h.symm.trans h'))
    exact hfits
  next h => simp only [h, reduceCtorEq, false_and, exists_false]

theorem slotCandidate_iff {p : Part} {w l : Nat} {excluded chosen : List SlotNo} {k : SlotNo} :
    p.slotCandidate w l excluded chosen k = true ↔ MayTake p w l excluded chosen k := by
  simp only [Part.slotCandidate, Bool.and_eq_true, admits_iff, Bool.not_eq_true', slotReserved_eq_false,
    MayTake, decide_eq_true_eq, Option.isNone_iff_eq_none, List.contains_eq_mem, decide_eq_false_iff_not, and_assoc]
  exact Iff.rfl

theorem mem_slotCandidates {p : Part} {w l : Nat} {excluded chosen : List SlotNo} {k : SlotNo} :
    k ∈ allSlots.filter (p.slotCandidate w l excluded chosen) ↔ MayTake p w l excluded chosen k := by
  rw [List.mem_filter, slotCandidate_iff]
  exact and_iff_right (mem_allSlots k)

theorem slotChoice_eq_some {p : Part} {w l : Nat} {excluded chosen : List SlotNo} {k : SlotNo} :
    p.slotChoice w l excluded chosen = some k ↔
      MayTake p w l excluded chosen k ∧ ∀ x, MayTake p w l excluded chosen x →
        p.committed k + chosen.count k < p.committed x + chosen.count x
          ∨ (p.committed k + chosen.count k = p.committed x + chosen.count x ∧ k ≤ x) := by
  unfold Part.slotChoice
  rw [leastBy_eq_some_of_sorted (allSlots_sorted.filter _)]
  simp only [mem_slotCandidates, Part.plannedCount]

theorem slotChoice_eq_none {p : Part} {w l : Nat} {excluded chosen : List SlotNo} :
    p.slotChoice w l excluded chosen = none ↔ ∀ k, ¬ MayTake p w l excluded chosen k := by
  unfold Part.slotChoice
  simp only [leastBy_eq_none, List.eq_nil_iff_forall_not_mem, mem_slotCandidates]

/-! ## The restacking of a buried record (R157) -/

/-- Every division of a list begins with its head, or divides the tail. -/
theorem forall_split_cons {α : Type} {P : List α → α → Prop} {a : α} {l : List α} :
    (∀ before x after, a :: l = before ++ x :: after → P before x)
      ↔ P [] a ∧ ∀ before x after, l = before ++ x :: after → P (a :: before) x := by
  refine ⟨fun h => ⟨h [] a l rfl, fun before x after hl => h (a :: before) x after (by rw [hl]; rfl)⟩, fun ⟨hhead, htail⟩ => ?_⟩
  intro before x after hl
  cases before with
  | nil => obtain ⟨rfl, rfl⟩ := List.cons.inj hl; exact hhead
  | cons b before => obtain ⟨rfl, htl⟩ := List.cons.inj hl; exact htail before x after htl

/-- A number of the plan has a record, and its slot is the choice after the slots chosen before it. -/
def Chosen (p : Part) (own : SlotNo) (chosen : List SlotNo) (x : Nat × SlotNo) : Prop :=
  ∃ m, p.remnant x.1 = some m ∧ p.slotChoice m.width m.length [own] chosen = some x.2

theorem planSlots_cons {p : Part} {own k : SlotNo} {chosen ks : List SlotNo} {n : Nat} {ns : List Nat} :
    p.planSlots own chosen (n :: ns) = some (k :: ks)
      ↔ Chosen p own chosen (n, k) ∧ p.planSlots own (k :: chosen) ns = some ks := by
  rw [Part.planSlots]
  cases hr : p.remnant n with
  | none => simp [Chosen, hr]
  | some m =>
      dsimp only
      cases hk : p.slotChoice m.width m.length [own] chosen with
      | none => simp [Chosen, hr, hk]
      | some k' =>
          have hchosen : Chosen p own chosen (n, k) ↔ k' = k := by simp [Chosen, hr, hk]
          rw [hchosen]
          simp only [Option.map_eq_some_iff, List.cons.injEq]
          exact ⟨fun ⟨_, hks, hkk, he⟩ => ⟨hkk, hkk ▸ he ▸ hks⟩, fun ⟨hkk, hks⟩ => ⟨ks, hkk ▸ hks, hkk, rfl⟩⟩

theorem planSlots_length {p : Part} {own : SlotNo} {chosen ks : List SlotNo} {ns : List Nat}
    (h : p.planSlots own chosen ns = some ks) : ks.length = ns.length := by
  induction ns generalizing chosen ks with
  | nil => obtain rfl := Option.some.inj h; rfl
  | cons n ns ih =>
      cases ks with
      | nil =>
          rw [Part.planSlots] at h
          split at h
          · simp at h
          · split at h <;> simp at h
      | cons k ks => simpa using ih (planSlots_cons.1 h).2

/-- Slots are found for a plan when each of its places is the choice after the places before it. -/
theorem planSlots_eq_some {p : Part} {own : SlotNo} {chosen : List SlotNo} {plan : List (Nat × SlotNo)} :
    p.planSlots own chosen (plan.map Prod.fst) = some (plan.map Prod.snd)
      ↔ ∀ before x after, plan = before ++ x :: after → Chosen p own ((before.map Prod.snd).reverse ++ chosen) x := by
  induction plan generalizing chosen with
  | nil => simp [Part.planSlots]
  | cons x plan ih =>
      rw [List.map_cons, List.map_cons, planSlots_cons, ih, forall_split_cons]
      simp

/-- The places are listed beside the numbers they are for. -/
theorem map_zip_eq_some {p : Part} {own : SlotNo} {above : List Nat} {plan : List (Nat × SlotNo)} :
    (p.planSlots own [] above).map (fun ks => above.zip ks) = some plan
      ↔ plan.map Prod.fst = above ∧ p.planSlots own [] above = some (plan.map Prod.snd) := by
  rw [Option.map_eq_some_iff]
  constructor
  · rintro ⟨ks, hks, rfl⟩
    have hlen := planSlots_length hks
    rw [List.map_fst_zip (Nat.le_of_eq hlen.symm), List.map_snd_zip (Nat.le_of_eq hlen)]
    exact ⟨rfl, hks⟩
  · rintro ⟨rfl, hks⟩
    exact ⟨_, hks, (List.zip_of_prod rfl rfl).symm⟩

/-- The remnant of a number may be moved (R157). -/
def Movable (p : Part) (n : Nat) : Prop := p.remnantInOrders n = false ∧ ∀ m, p.remnant n = some m → m.state = .free

/-- The rack has room to spare for the restacking of so many remnants out of a slot (R157). -/
def RoomToSpare (p : Part) (own : SlotNo) (depth : Nat) : Prop :=
  depth + p.rsu.digReserve + p.freePlaces own ≤ p.freeRackPlaces

theorem movable_iff {p : Part} {n : Nat} :
    ((p.remnant n).all (fun m => m.state == .free) && !p.remnantInOrders n) = true ↔ Movable p n := by
  rw [Bool.and_eq_true, Bool.not_eq_true', and_comm, Option.all_eq_true]
  simp only [beq_iff_eq, Movable]

theorem restackPlan_top {p : Part} {r : Remnant} {own : SlotNo} {level : Nat} (hl : r.location = .slot own level)
    (h : aboveIn (p.slot own).stack r.number = []) : p.restackPlan r = some [] := by
  unfold Part.restackPlan
  rw [hl]
  exact if_pos (by rw [h]; rfl)

theorem restackPlan_buried {p : Part} {r : Remnant} {own : SlotNo} {level : Nat} {plan : List (Nat × SlotNo)}
    (hl : r.location = .slot own level) (h : aboveIn (p.slot own).stack r.number ≠ []) :
    p.restackPlan r = some plan
      ↔ ((∀ n ∈ aboveIn (p.slot own).stack r.number, Movable p n)
          ∧ RoomToSpare p own (aboveIn (p.slot own).stack r.number).length)
        ∧ plan.map Prod.fst = aboveIn (p.slot own).stack r.number
        ∧ p.planSlots own [] (aboveIn (p.slot own).stack r.number) = some (plan.map Prod.snd) := by
  unfold Part.restackPlan
  rw [hl]
  dsimp only
  rw [if_neg (by simpa using h), Option.ite_none_right_eq_some, map_zip_eq_some, List.all_eq_true]
  simp only [movable_iff, RoomToSpare]

/-- The plan of a record in a slot: nothing at the top; below, each remnant above moved to the place that is the choice after the
places before it, with room to spare. -/
theorem restackPlan_slot {p : Part} {r : Remnant} {own : SlotNo} {level : Nat} {plan : List (Nat × SlotNo)}
    (hl : r.location = .slot own level) :
    p.restackPlan r = some plan
      ↔ plan.map Prod.fst = aboveIn (p.slot own).stack r.number
        ∧ (plan = [] ∨ (RoomToSpare p own plan.length ∧ ∀ before x after, plan = before ++ x :: after →
            Movable p x.1 ∧ Chosen p own (before.map Prod.snd).reverse x)) := by
  by_cases h : aboveIn (p.slot own).stack r.number = []
  · rw [restackPlan_top hl h, h, List.map_eq_nil_iff, Option.some.injEq, eq_comm]
    exact ⟨fun he => ⟨he, .inl he⟩, And.left⟩
  · rw [restackPlan_buried hl h]
    constructor
    · rintro ⟨⟨hmove, hroom⟩, habove, hplan⟩
      rw [← habove] at hmove hroom hplan
      rw [List.length_map] at hroom
      refine ⟨habove, .inr ⟨hroom, fun before x after hx => ⟨hmove _ (List.mem_map_of_mem (by simp [hx])), ?_⟩⟩⟩
      simpa using planSlots_eq_some.1 hplan before x after hx
    · rintro ⟨habove, rfl | ⟨hroom, hplan⟩⟩
      · exact absurd habove.symm h
      · rw [← habove, List.length_map]
        refine ⟨⟨fun n hn => ?_, hroom⟩, rfl, planSlots_eq_some.2 fun before x after hx => ?_⟩
        · obtain ⟨x, hx, rfl⟩ := List.mem_map.1 hn
          obtain ⟨before, after, hsplit⟩ := List.append_of_mem hx
          exact (hplan before x after hsplit).1
        · simpa using (hplan before x after hx).2

/-- For a number whose slot is found, what may be moved has a FREE record. -/
theorem movable_chosen_iff {p : Part} {own : SlotNo} {chosen : List SlotNo} {x : Nat × SlotNo} :
    Movable p x.1 ∧ Chosen p own chosen x
      ↔ p.remnantInOrders x.1 = false
        ∧ ∃ m, p.remnant x.1 = some m ∧ m.state = .free ∧ p.slotChoice m.width m.length [own] chosen = some x.2 := by
  constructor
  · rintro ⟨⟨horders, hfree⟩, m, hm, hk⟩
    exact ⟨horders, m, hm, hfree m hm, hk⟩
  · rintro ⟨horders, m, hm, hfree, hk⟩
    refine ⟨⟨horders, fun m' hm' => ?_⟩, m, hm, hk⟩
    rwa [← Option.some.inj (hm.symm.trans hm')]

/-! ## What fits and counts (R155 to R157) -/

theorem fit_eq_some {q : FitRequest} {w l : Nat} {rotated : Bool} :
    q.fit w l = some rotated
      ↔ (rotated = false ∧ q.width ≤ w ∧ q.length ≤ l)
        ∨ (rotated = true ∧ ¬ (q.width ≤ w ∧ q.length ≤ l) ∧ q.rotate = true ∧ q.width ≤ l ∧ q.length ≤ w) := by
  unfold FitRequest.fit
  by_cases hs : q.width ≤ w ∧ q.length ≤ l
  · rw [if_pos hs]
    cases rotated <;> simp [hs]
  · rw [if_neg hs, Option.ite_none_right_eq_some]
    cases rotated <;> simp [hs]

/-- A record lies where the request may take it, and this is its restacking (R155, R157). -/
def Reachable (p : Part) (deep : Bool) (r : Remnant) (plan : List (Nat × SlotNo)) : Prop :=
  (∃ b, r.location = .bed b ∧ (p.bed b).owner = none ∧ (p.bed b).claim = none ∧ plan = [])
    ∨ ∃ own level, r.location = .slot own level
      ∧ plan.map Prod.fst = (p.slot own).stack.reverse.takeWhile (· != r.number)
      ∧ (plan = [] ∨ (deep = true ∧ p.rsu.digReserve + plan.length + p.freePlaces own ≤ p.freeRackPlaces
        ∧ ∀ before n k after, plan = before ++ (n, k) :: after →
            p.remnantInOrders n = false
            ∧ ∃ m, p.remnant n = some m ∧ m.state = .free
              ∧ p.slotChoice m.width m.length [own] (before.map Prod.snd).reverse = some k))

theorem held_eq_false {r : BedRec} : r.held = false ↔ r.owner = none ∧ r.claim = none := by
  simp [BedRec.held]

theorem candidateDepth_bed {p : Part} {deep : Bool} {r : Remnant} {b : Bed} {depth : Nat} (hl : r.location = .bed b) :
    p.candidateDepth deep r = some depth ↔ ((p.bed b).owner = none ∧ (p.bed b).claim = none) ∧ depth = 0 := by
  unfold Part.candidateDepth
  rw [hl]
  dsimp only
  rw [Option.ite_none_left_eq_some, Bool.not_eq_true, held_eq_false, Option.some.injEq, eq_comm (a := 0)]

theorem candidateDepth_slot {p : Part} {deep : Bool} {r : Remnant} {own : SlotNo} {level depth : Nat}
    (hl : r.location = .slot own level) :
    p.candidateDepth deep r = some depth
      ↔ depth = (aboveIn (p.slot own).stack r.number).length ∧ (depth = 0 ∨ deep = true) := by
  unfold Part.candidateDepth
  rw [hl]
  dsimp only
  rw [Option.ite_none_right_eq_some, Option.some.injEq]
  exact ⟨fun ⟨hd, he⟩ => ⟨he.symm, he ▸ hd⟩, fun ⟨he, hd⟩ => ⟨he ▸ hd, he.symm⟩⟩

theorem restackPlan_elsewhere {p : Part} {r : Remnant} (h : ∀ own level, r.location ≠ .slot own level) : p.restackPlan r = some [] := by
  unfold Part.restackPlan
  split
  next own level hl => exact absurd hl (h own level)
  next => rfl

theorem reachable_slot {p : Part} {deep : Bool} {r : Remnant} {own : SlotNo} {level : Nat} {plan : List (Nat × SlotNo)}
    (hl : r.location = .slot own level) :
    Reachable p deep r plan
      ↔ plan.map Prod.fst = aboveIn (p.slot own).stack r.number
        ∧ (plan = [] ∨ (deep = true ∧ RoomToSpare p own plan.length ∧ ∀ before x after, plan = before ++ x :: after →
            Movable p x.1 ∧ Chosen p own (before.map Prod.snd).reverse x)) := by
  simp only [Reachable, hl, Location.slot.injEq, reduceCtorEq, false_and, exists_false, false_or, movable_chosen_iff, and_assoc,
    exists_and_left, exists_eq_left', Prod.forall, RoomToSpare, aboveIn, Nat.add_comm plan.length]

/-- The depth of a record that may be a candidate is the length of its restacking. -/
theorem depth_and_plan_iff {p : Part} {deep : Bool} {r : Remnant} {depth : Nat} {plan : List (Nat × SlotNo)} :
    (p.candidateDepth deep r = some depth ∧ p.restackPlan r = some plan) ↔ depth = plan.length ∧ Reachable p deep r plan := by
  cases hl : r.location with
  | bed b =>
      rw [candidateDepth_bed hl, restackPlan_elsewhere (by simp [hl]), Option.some.injEq]
      simp only [Reachable, hl, Location.bed.injEq, exists_eq_left', reduceCtorEq, false_and, exists_false, or_false]
      constructor
      · rintro ⟨⟨⟨ho, hc⟩, rfl⟩, rfl⟩
        exact ⟨rfl, ho, hc, rfl⟩
      · rintro ⟨rfl, ho, hc, rfl⟩
        exact ⟨⟨⟨ho, hc⟩, rfl⟩, rfl⟩
  | slot own level =>
      rw [candidateDepth_slot hl, restackPlan_slot hl, reachable_slot hl]
      constructor
      · rintro ⟨⟨hdepth, hdeep⟩, habove, hplan⟩
        have hlen : depth = plan.length := by rw [hdepth, ← habove, List.length_map]
        refine ⟨hlen, habove, ?_⟩
        rcases hdeep with hzero | hdeep
        · exact .inl (List.length_eq_zero_iff.1 (hlen.symm.trans hzero))
        · exact hplan.imp_right fun h => ⟨hdeep, h⟩
      · rintro ⟨rfl, habove, hplan⟩
        exact ⟨⟨by rw [← habove, List.length_map], hplan.imp List.length_eq_zero_iff.2 And.left⟩, habove, hplan.imp_right And.right⟩
  | hook c => simp [Part.candidateDepth, Reachable, hl]
  | unknown => simp [Part.candidateDepth, Reachable, hl]

theorem candidate_eq_some {p : Part} {q : FitRequest} {r : Remnant} {depth : Nat} :
    p.candidate q r = some depth
      ↔ (r.state = .free ∧ r.grade = q.grade ∧ r.thickness = q.thickness ∧ p.remnantInOrders r.number = false)
        ∧ p.candidateDepth q.deep r = some depth :=
  Option.ite_none_right_eq_some

/-- The three judgements of one record: its place, its sides, its restacking. -/
theorem fitting_judged {p : Part} {q : FitRequest} {r : Remnant} {f : Fitting} :
    p.fitting q r = some f
      ↔ ∃ depth, p.candidate q r = some depth ∧ q.fit r.width r.length = some f.rotated ∧ p.restackPlan r = some f.plan
        ∧ f.remnant = r ∧ f.score = q.score r.width r.length p.rsu.digPenalty depth := by
  unfold Part.fitting
  constructor
  · intro h
    split at h
    next depth rotated plan hc hr hp =>
      obtain rfl := Option.some.inj h
      exact ⟨depth, hc, hr, hp, rfl, rfl⟩
    next => simp at h
  · rintro ⟨depth, hc, hr, hp, hrem, hscore⟩
    rw [hc, hr, hp]
    cases f
    simp_all

theorem fitting_eq_some {p : Part} {q : FitRequest} {r : Remnant} {f : Fitting} :
    p.fitting q r = some f
      ↔ f.remnant = r ∧ r.state = .free ∧ r.grade = q.grade ∧ r.thickness = q.thickness ∧ p.remnantInOrders r.number = false
        ∧ ((f.rotated = false ∧ q.width ≤ r.width ∧ q.length ≤ r.length)
          ∨ (f.rotated = true ∧ ¬ (q.width ≤ r.width ∧ q.length ≤ r.length) ∧ q.rotate = true ∧ q.width ≤ r.length ∧ q.length ≤ r.width))
        ∧ f.score = q.score r.width r.length p.rsu.digPenalty f.plan.length
        ∧ Reachable p q.deep r f.plan := by
  rw [fitting_judged, ← fit_eq_some]
  constructor
  · rintro ⟨depth, hc, hfit, hplan, hrem, hscore⟩
    obtain ⟨⟨hstate, hgrade, hthick, horders⟩, hdepth⟩ := candidate_eq_some.1 hc
    obtain ⟨rfl, hreach⟩ := depth_and_plan_iff.1 ⟨hdepth, hplan⟩
    exact ⟨hrem, hstate, hgrade, hthick, horders, hfit, hscore, hreach⟩
  · rintro ⟨hrem, hstate, hgrade, hthick, horders, hfit, hscore, hreach⟩
    obtain ⟨hdepth, hplan⟩ := depth_and_plan_iff.2 ⟨rfl, hreach⟩
    exact ⟨_, candidate_eq_some.2 ⟨⟨hstate, hgrade, hthick, horders⟩, hdepth⟩, hfit, hplan, hrem, hscore⟩

/-- Settles O27: the slot choice, what fits, and the winner, each by the first of the least or the judgement of one record. -/
theorem theWinnerScoresLeastAndIsTheOldest : Obligations.TheWinnerScoresLeastAndIsTheOldest :=
  ⟨fun _ _ _ _ _ => ⟨fun _ => slotChoice_eq_some, slotChoice_eq_none⟩, fun _ _ _ _ => fitting_eq_some, fun _ _ _ => leastBy_split⟩

/-! ## REMNANT REQUEST without restacking (R154, R158) -/

/-- The winner is a record of the table. -/
theorem bestFit_mem {p : Part} {q : FitRequest} {f : Fitting} (h : p.bestFit q = some f) : f.remnant ∈ p.rsu.remnants := by
  obtain ⟨before, after, hsplit, -, -⟩ := leastBy_split h
  have hmem : f ∈ p.rsu.remnants.filterMap (p.fitting q) := by rw [hsplit]; simp
  obtain ⟨r, hr, hf⟩ := List.mem_filterMap.1 hmem
  rwa [(fitting_eq_some.1 hf).1]

/-- The waiting place does not matter to the judgement of a record, of which it is no condition. -/
theorem fitting_taking (p : Part) (q : FitRequest) (r : Remnant) : p.taking.fitting q r = p.fitting q r :=
  Option.ext fun _ => (fitting_eq_some (p := p.taking)).trans (fitting_eq_some (p := p)).symm

theorem bestFit_taking (p : Part) (q : FitRequest) : p.taking.bestFit q = p.bestFit q := by
  unfold Part.bestFit
  rw [show p.taking.fitting q = p.fitting q from funext (fitting_taking p q)]

/-- The operands of a request lie in their ranges (R154). -/
structure RequestFits (grade thickness w l rotate deep reservation : Nat) : Prop where
  grade : grade ≤ 15
  thin : 30 ≤ thickness
  thick : thickness ≤ 1500
  widthLow : 100 ≤ w
  widthHigh : w ≤ 5000
  lengthLow : 100 ≤ l
  lengthHigh : l ≤ 24000
  rotate : rotate ≤ 1
  deep : deep ≤ 1
  reservation : reservation ≤ 65535

/-- What a request asks for, with the margin of its thickness on every side (R154). -/
def asked (p : Part) (grade thickness w l rotate deep : Nat) : FitRequest :=
  { grade := grade, thickness := thickness, width := w + 2 * p.marginFor thickness, length := l + 2 * p.marginFor thickness,
    rotate := rotate == 1, deep := deep == 1 }

/-- The one check of the request. -/
theorem RequestFits.check {grade thickness w l rotate deep reservation : Nat}
    (h : RequestFits grade thickness w l rotate deep reservation) :
    (grade ≤ 15 && within 30 1500 thickness && within 100 5000 w && within 100 24000 l && isYesNo rotate && isYesNo deep
      && reservation ≤ 65535) = true := by
  obtain ⟨hg, ht, ht', hw, hw', hl, hl', hr, hd, hv⟩ := h
  simp [within, isYesNo, hg, ht, ht', hw, hw', hl, hl', hr, hd, hv]

theorem remnantRequest_noFit {p : Part} {grade thickness w l rotate deep reservation : Nat}
    (hf : RequestFits grade thickness w l rotate deep reservation) (h : p.bestFit (asked p grade thickness w l rotate deep) = none) :
    remnantRequest p grade thickness w l rotate deep reservation = refuse p .noFit := by
  unfold asked at h
  unfold remnantRequest
  rw [checked_passed (List.forall_mem_singleton.2 hf.check), h]

theorem remnantRequest_won {p : Part} {grade thickness w l rotate deep reservation : Nat} {f : Fitting}
    (hf : RequestFits grade thickness w l rotate deep reservation) (h : p.bestFit (asked p grade thickness w l rotate deep) = some f) :
    remnantRequest p grade thickness w l rotate deep reservation = p.takeWinner f reservation := by
  unfold asked at h
  unfold remnantRequest
  rw [checked_passed (List.forall_mem_singleton.2 hf.check), h]

/-- A winner with nothing to move is reserved at once. -/
theorem takeWinner_free {p : Part} {f : Fitting} (h : f.plan = []) (reservation : Nat) :
    p.takeWinner f reservation = (p.reserve f.remnant.number reservation [], .ok, f.reply []) := by
  unfold Part.takeWinner
  rw [h]

/-- The winner's record with the reservation of a request (R158). -/
def reserved (reservation : Nat) (r : Remnant) : Remnant := { r with state := .reserved, reservation := some reservation, restack := [] }

theorem reserve_some {p : Part} {n : Nat} {r : Remnant} (h : p.remnant n = some r) (reservation : Nat) :
    p.reserve n reservation []
      = (p.setRemnants (p.rsu.remnants.map (fun x => if x.number = n then reserved reservation x else x))).emits
          (.remnantReport n :: r.stateReport (reserved reservation r)) := by
  refine (changeRemnant_some h (reserved reservation)).trans ?_
  simp only [updateWhere, beq_iff_eq]

/-- Settles O26: a winner with nothing above it places no order, and the reports of its reservation are unheard. -/
theorem remnantRequestReservesTheWinner : Obligations.RemnantRequestReservesTheWinner := by
  intro s tag grade thickness w l rotate deep reservation hready hg ht ht' hw hw' hl hl' hr hd hv
  have hf : RequestFits grade thickness w l rotate deep reservation := ⟨hg, ht, ht', hw, hw', hl, hl', hr, hd, hv⟩
  refine ⟨fun h => ?noFit, fun f h hplan hn hk => ?won⟩
  case noFit => exact answers_refused hready rfl (remnantRequest_noFit (p := s.part.taking) hf ((bestFit_taking ..).trans h))
  case won =>
    obtain ⟨r, hrem⟩ := remnant_of_mem (bestFit_mem h)
    have howner := (remnantRequest_won (p := s.part.taking) hf ((bestFit_taking ..).trans h)).trans (takeWinner_free hplan reservation)
    rw [reserve_some (p := s.part.taking) hrem] at howner
    exact answers_changed hready rfl howner rfl hn (fun k level => hk r k level hrem) rfl rfl rfl

end Sys2Proof.Machine.StockChoices
end

section
/-! PROOFS. The floor line and the office transmitter (chapters 10.3 to 10.5 and 11.4): what the arbiter grants, what a grant sends, what
a miss keeps, when a passthrough is answered, and what the transmitter begins. -/

namespace Sys2Proof.Machine.FloorLine

open CranePresence

/-! ## The arbiter (R167, R168) -/

/-- What is taken is the first element of its kind, and the others keep their order. -/
theorem takeFirst_split {α : Type} {what : α → Bool} {l rest : List α} {a : α} (h : takeFirst what l = some (a, rest)) :
    ∃ before after, l = before ++ a :: after ∧ rest = before ++ after ∧ what a = true ∧ ∀ x ∈ before, what x = false := by
  induction l generalizing rest with
  | nil => cases h
  | cons b l ih =>
      rw [takeFirst] at h
      split at h
      · next hb =>
        cases h
        exact ⟨[], l, rfl, rfl, hb, by simp⟩
      · next hb =>
        obtain ⟨⟨c, m⟩, hm, he⟩ := Option.map_eq_some_iff.1 h
        cases he
        obtain ⟨before, after, rfl, rfl, ha, hbefore⟩ := ih hm
        exact ⟨b :: before, after, rfl, rfl, ha, List.forall_mem_cons.2 ⟨by simpa using hb, hbefore⟩⟩

/-- A grant in class `n`: the frame `r` leaves the pending ones of `f`, and `f'` is left with the others in their order. Before it stands
no frame of its class, or, where the turn of a gantry decides, none of its class and station. -/
structure Grant (f : FloorPort) (n : Nat) (r : FloorRequest) (f' : FloorPort) : Prop where
  cls : r.frame.cls = n
  order : ∃ before after, f.pending = before ++ r :: after ∧ f'.pending = before ++ after
    ∧ ((n ≠ 4 ∧ n ≠ 5) → ∀ x ∈ before, x.frame.cls ≠ n) ∧ ∀ x ∈ before, x.frame.cls = n → x.station ≠ r.station
  rest : f' = { f with pending := f'.pending, lastCommand := f'.lastCommand, lastMark := f'.lastMark }

/-- The oldest frame of a class granted. -/
theorem Grant.of_oldest {f f' : FloorPort} {n : Nat} {r : FloorRequest}
    (h : (takeFirst (fun r => r.frame.cls == n) f.pending).map (fun (r, rest) => (r, { f with pending := rest })) = some (r, f')) :
    Grant f n r f' := by
  obtain ⟨⟨q, rest⟩, ht, he⟩ := Option.map_eq_some_iff.1 h
  cases he
  obtain ⟨before, after, hl, hrest, hr, hbefore⟩ := takeFirst_split ht
  have hnone : ∀ x ∈ before, x.frame.cls ≠ n := fun x hx => by simpa using hbefore x hx
  exact ⟨by simpa using hr, ⟨before, after, hl, hrest, fun _ => hnone, fun x hx hc => absurd hc (hnone x hx)⟩, rfl⟩

/-- The frame granted by turn is the oldest of its class for the gantry whose turn it is. -/
theorem Grant.of_turn {f f' : FloorPort} {n : Nat} {last g : Gantry} {r : FloorRequest}
    (h : f.pickGantry n last = some (g, r, f'.pending)) (hn : n = 4 ∨ n = 5)
    (hf : f' = { f with pending := f'.pending, lastCommand := f'.lastCommand, lastMark := f'.lastMark }) : Grant f n r f' := by
  obtain ⟨g', _, hg⟩ := List.exists_of_findSome?_eq_some h
  obtain ⟨⟨q, rest⟩, ht, he⟩ := Option.map_eq_some_iff.1 hg
  cases he
  obtain ⟨before, after, hl, hrest, hr, hbefore⟩ := takeFirst_split ht
  obtain ⟨hc, hs⟩ : r.frame.cls = n ∧ r.station = gantryStation g := by simpa using hr
  refine ⟨hc, ⟨before, after, hl, hrest, fun hne => by omega, fun x hx hx' => ?_⟩, hf⟩
  rw [hs]
  simpa [hx'] using hbefore x hx

theorem one_le_cls (f : FloorFrame) : 1 ≤ f.cls := by cases f <;> simp [FloorFrame.cls]

/-- Without a pending frame of the lowest class that is left, every one is of the next class at least. -/
theorem next_class {f : FloorPort} {n : Nat} (hle : ∀ x ∈ f.pending, n ≤ x.frame.cls) (h : ¬ f.hasClass n = true) :
    ∀ x ∈ f.pending, n + 1 ≤ x.frame.cls := by
  intro x hx
  have hne : x.frame.cls ≠ n := by
    simp only [FloorPort.hasClass, List.any_eq_true, not_exists, not_and, beq_iff_eq] at h
    exact h x hx
  have := hle x hx
  omega

/-- The arbiter grants in the highest class that has a pending frame (R167, R168). -/
theorem pick_grant {f f' : FloorPort} {r : FloorRequest} (h : f.pick = some (r, f')) :
    ∃ n, Grant f n r f' ∧ ∀ x ∈ f.pending, n ≤ x.frame.cls := by
  have hle1 : ∀ x ∈ f.pending, 1 ≤ x.frame.cls := fun x _ => one_le_cls x.frame
  unfold FloorPort.pick at h
  dsimp only at h
  split at h
  · exact ⟨1, .of_oldest h, hle1⟩
  next h1 =>
  have hle2 := next_class hle1 h1
  split at h
  · exact ⟨2, .of_oldest h, hle2⟩
  next h2 =>
  have hle3 := next_class hle2 h2
  split at h
  · exact ⟨3, .of_oldest h, hle3⟩
  next h3 =>
  have hle4 := next_class hle3 h3
  split at h
  · obtain ⟨⟨g, q, rest⟩, hg, he⟩ := Option.map_eq_some_iff.1 h
    cases he
    exact ⟨4, .of_turn hg (.inl rfl) rfl, hle4⟩
  next h4 =>
  have hle5 := next_class hle4 h4
  split at h
  · obtain ⟨⟨g, q, rest⟩, hg, he⟩ := Option.map_eq_some_iff.1 h
    cases he
    exact ⟨5, .of_turn hg (.inr rfl) rfl, hle5⟩
  next h5 => exact ⟨6, .of_oldest h, next_class hle5 h5⟩

/-- Settles O40: the classes are asked from the highest down, and a grant keeps the order of the others. -/
theorem theArbiterGrantsTheHighestClass : Obligations.TheArbiterGrantsTheHighestClass := by
  intro f f' r h
  obtain ⟨n, ⟨hcls, ⟨before, after, hl, hrest, hold, hturn⟩, _⟩, hle⟩ := pick_grant h
  subst hcls
  exact ⟨before, after, hl, hrest, hle, hold, hturn⟩

/-! ## Granting the line (R163, R167, R169) -/

theorem floorGrant_busy {p : Part} (h : p.flp.inFlight ≠ none ∨ p.flp.silence = true) : p.floorGrant = p := by
  unfold Part.floorGrant
  rw [if_pos (by simpa [Option.isSome_iff_ne_none] using h)]

/-- On a free and silent line the arbiter's choice is granted. -/
theorem floorGrant_pending {p : Part} {r : FloorRequest} {f : FloorPort} (hf : p.flp.inFlight = none) (hs : p.flp.silence = false)
    (hpick : p.flp.pick = some (r, f)) : p.floorGrant = p.grantPending r f := by
  unfold Part.floorGrant
  rw [if_neg (by simp [hf, hs]), hpick]

/-- On a free and silent line with nothing to grant the rotation polls. -/
theorem floorGrant_poll {p : Part} {x : Station} {f : FloorPort} (hf : p.flp.inFlight = none) (hs : p.flp.silence = false)
    (hpick : p.flp.pick = none) (hturn : p.rotation = some (x, f)) : p.floorGrant = { p with flp := f.send ⟨x, .poll false⟩ } := by
  unfold Part.floorGrant
  rw [if_neg (by simp [hf, hs]), hpick, hturn]

/-- A frame that is no passthrough is sent as it is granted. -/
theorem grantPending_command {r : FloorRequest} (h : r.frame.cls ≠ 6) (p : Part) (f : FloorPort) :
    p.grantPending r f = { p with flp := f.send r } := by
  unfold Part.grantPending
  dsimp only
  split
  · next hr => simp [hr, FloorFrame.cls] at h
  · rfl

theorem pick_empty {f : FloorPort} (h : f.pending = []) : f.pick = none := by
  simp [FloorPort.pick, FloorPort.hasClass, h, takeFirst]

/-- On a crane turn the next crane is polled when it is installed (R169). -/
theorem rotation_crane {p : Part} (ht : p.flp.turn = .crane) (hc : (p.crane p.flp.nextCrane).installed = true) :
    p.rotation = some (p.flp.pollCrane p.flp.nextCrane) := by
  have hturn : p.turnCrane = some p.flp.nextCrane :=
    List.find?_cons_of_pos ((EngineDispatch.eligible_crane p _).trans hc)
  unfold Part.rotation
  rw [ht, hturn]

/-- Settles O41: the arbiter's frame, the rotation's poll, and the line that is taken. -/
theorem floorGrantSendsOneFrame : Obligations.FloorGrantSendsOneFrame := by
  refine ⟨fun s r f h hf hs hpick hcls => ?_, fun s h hf hs hempty hturn hcrane => ?_, fun s h hbusy => ?_⟩
  · obtain ⟨_, hgrant, _⟩ := pick_grant hpick
    have hwindow : f.answerWindow = s.part.flp.answerWindow := by rw [hgrant.rest]
    refine happens_quiet h ?_ rfl
    rw [floorGrant_pending hf hs hpick, grantPending_command hcls, FloorPort.send, hwindow]
    exact Part.settled_nil h.2.1
  · refine happens_quiet h ?_ rfl
    rw [floorGrant_poll hf hs (pick_empty hempty) (rotation_crane hturn hcrane)]
    exact Part.settled_nil h.2.1
  · refine happens_quiet h ?_ rfl
    rw [floorGrant_busy hbusy]
    exact Part.settled_nil h.2.1

/-! ## Misses (R163, R164) -/

/-- A missed command frame that is no ARC STOP is kept at the head, unchanged. -/
theorem keepFrame_command {r : FloorRequest} (h1 : r.frame.cls ≠ 1) (h2 : r.frame.cls ≠ 2) (p : Part) :
    p.keepFrame r = { p with flp := { p.flp with pending := r :: p.flp.pending } } := by
  unfold Part.keepFrame
  dsimp only
  split
  · next hr => simp [hr, FloorFrame.cls] at h2
  · next hr => simp [hr, FloorFrame.cls] at h2
  · next hr => simp [hr, FloorFrame.cls] at h1
  · rfl

theorem isPoll_eq_false {f : FloorFrame} (h : f.cls ≠ 2) (h' : f.cls ≠ 6) : f.isPoll = false := by
  cases f with
  | poll due => exact absurd rfl h
  | pass cls payload => exact absurd rfl h'
  | _ => rfl

/-- A miss of a frame that is neither a poll nor a passthrough is counted against its station. -/
theorem miss_counted {t : Transaction} (h2 : t.request.frame.cls ≠ 2) (h6 : t.request.frame.cls ≠ 6) (p : Part) (cause : MissCause) :
    p.miss t cause
      = ({ p with flp := { p.flp with inFlight := none, silence := true } } : Part).countMiss t.request cause := by
  unfold Part.miss
  dsimp only
  split
  · next hr => simp [hr, FloorFrame.cls] at h6
  · exact if_neg (by simp [isPoll_eq_false h2 h6])

/-- A miss before the third, of a station that is not LOST, is counted with its cause, and the frame kept. -/
theorem countMiss_kept {p : Part} {r : FloorRequest} (hl : (p.station r.station).lost = false) (hm : (p.station r.station).misses < 2)
    (cause : MissCause) :
    p.countMiss r cause
      = (p.setStation r.station
          { misses := (p.station r.station).misses + 1, lost := false, cause := some cause }).keepFrame r := by
  unfold Part.countMiss
  dsimp only
  rw [if_neg (by simp [hl]), if_pos (by omega), hl]

/-- The part after a miss before the third: the miss counted with its cause, the line silent, the frame kept at the head (R163, R164). -/
def missKept (p : Part) (r : FloorRequest) (cause : MissCause) : Part :=
  let q := p.setStation r.station { misses := (p.station r.station).misses + 1, lost := false, cause := some cause }
  { q with flp := { q.flp with inFlight := none, silence := true, pending := r :: p.flp.pending } }

/-- A miss before the third, of a command frame other than an ARC STOP and of a station that is not LOST, keeps the frame. -/
theorem miss_kept {p : Part} {t : Transaction} (h1 : t.request.frame.cls ≠ 1) (h2 : t.request.frame.cls ≠ 2)
    (h6 : t.request.frame.cls ≠ 6) (hl : (p.station t.request.station).lost = false)
    (hm : (p.station t.request.station).misses < 2) (cause : MissCause) : p.miss t cause = missKept p t.request cause := by
  rw [miss_counted h2 h6, countMiss_kept (by exact hl) (by exact hm), keepFrame_command h1 h2]
  rfl

/-- Settles O42: the three rows come to one miss, which keeps the frame (R164), and the silence ends by itself. -/
theorem aMissKeepsTheFrame : Obligations.AMissKeepsTheFrame := by
  refine ⟨fun s c t cause h hf hrow h1 h2 h6 hl hm => ?_, fun s h => ?_⟩
  · have hmiss (f : Part → Part) (hfm : f s.part = s.part.miss t cause) :
        s.happens f = .next { s with part := missKept s.part t.request cause } := by
      refine happens_quiet h ?_ rfl
      rw [hfm, miss_kept h1 h2 h6 hl hm]
      exact Part.settled_nil h.2.1
    obtain ⟨rfl, rfl⟩ | ⟨rfl, rfl⟩ | ⟨bytes, rfl, hbytes, rfl⟩ := hrow
    · exact hmiss (fun p => p.windowExpiry false) (by simp [Part.windowExpiry, hf])
    · exact hmiss (fun p => p.windowExpiry true) (by simp [Part.windowExpiry, hf])
    · exact hmiss (fun p => p.badAnswer bytes) (by simp [Part.badAnswer, hbytes, hf])
  · refine happens_quiet (f := Part.silenceEnd) h ?_ rfl
    exact Part.settled_nil h.2.1

/-! ## The transmitter (R180) -/

/-- The frame sent has ended, and the transmitter begins its next one. -/
theorem leaves_transmitDone {s : State} (hr : s.part.ofp.resetHeld = false) (ha : s.part.agenda = []) :
    Leaves .officeTransmitDone s s.part.transmitDone.transmit := by
  have hsettled : s.part.transmitDone.settled = s.part.transmitDone := Part.settled_nil ha
  show s.happens Part.transmitDone = _
  unfold State.happens Part.happens
  rw [if_neg (by simp [hr]), hsettled]

/-- A free transmitter begins the oldest reply, and a kept one ends its passthrough (R174). -/
theorem transmit_reply {p : Part} {r : Reply} {rest : List Reply} (hs : p.ofp.sending = none) (hr : p.ofp.replies = r :: rest) :
    p.transmit = { p with
      ofp := { p.ofp with sending := some (.reply r), replies := rest },
      flp := { p.flp with passHeld := if r.kept then none else p.flp.passHeld } } := by
  unfold Part.transmit
  rw [hs, hr]
  dsimp only
  split <;> rfl

/-- A free transmitter begins the oldest notice when no reply waits. -/
theorem transmit_notice {p : Part} {q : Nat} {n : Notice} {rest : List (Nat × Notice)} (hs : p.ofp.sending = none)
    (hr : p.ofp.replies = []) (hn : p.ofp.notices = (q, n) :: rest) :
    p.transmit = { p with ofp := { p.ofp with sending := some (.notice q n), notices := rest } } := by
  unfold Part.transmit
  rw [hs, hr, hn]

/-- Settles O38: the transmitter, free again, begins a reply before a notice. -/
theorem theTransmitterTakesRepliesFirst : Obligations.TheTransmitterTakesRepliesFirst := by
  intro s f hheld ha _
  have hdone := leaves_transmitDone hheld ha
  refine ⟨fun r rest hr => ?_, fun q n rest hr hn => ?_, fun hr hn => ?_⟩
  · rwa [transmit_reply (p := s.part.transmitDone) rfl hr] at hdone
  · rwa [transmit_notice (p := s.part.transmitDone) rfl hr hn] at hdone
  · rwa [Part.transmit_rest (p := s.part.transmitDone) fun _ => ⟨hr, hn⟩] at hdone

/-! ## Passthrough (R174, R180, R191) -/

/-- A passthrough frame that the Office Port reads whole: its payload fits, and it names a station and a class (R191). -/
structure Readable (destination : Nat) (cls : Byte) (body : List Byte) (x : Station) (c : PassClass) : Prop where
  fits : body.length ≤ 238
  station : addressStation? destination = some x
  pass : passClass? cls.toNat = some c

section
variable {destination : Nat} {cls : Byte} {body : List Byte} {x : Station} {c : PassClass} {p : Part}

/-- What becomes of a frame that is read is a matter of the place and of the pass table. -/
theorem Readable.request (h : Readable destination cls body x c) (p : Part) (tag : Nat) :
    passRequest p tag destination kPassthrough (cls :: body)
      = if p.flp.passHeld.isSome then (p, some .busy)
        else if p.passBlocked x c then (p, some .blocked)
        else (({ p with flp := { p.flp with passHeld := some tag } } : Part).request x (.pass c body), none) := by
  have hfits : ¬ (kPassthrough ≠ kPassthrough ∨ 238 < body.length) := by have := h.fits; omega
  unfold passRequest
  dsimp only
  rw [if_neg hfits, h.station, h.pass]

theorem Readable.busy (h : Readable destination cls body x c) (hheld : p.flp.passHeld ≠ none) (tag : Nat) :
    passRequest p tag destination kPassthrough (cls :: body) = (p, some .busy) := by
  rw [h.request, if_pos (Option.isSome_iff_ne_none.2 hheld)]

theorem Readable.blocked (h : Readable destination cls body x c) (hfree : p.flp.passHeld = none) (hblocked : p.passBlocked x c = true)
    (tag : Nat) : passRequest p tag destination kPassthrough (cls :: body) = (p, some .blocked) := by
  rw [h.request, if_neg (by simp [hfree]), if_pos hblocked]

theorem Readable.pending (h : Readable destination cls body x c) (hfree : p.flp.passHeld = none) (hpass : p.passBlocked x c = false)
    (tag : Nat) :
    passRequest p tag destination kPassthrough (cls :: body)
      = ({ p with flp := { p.flp with passHeld := some tag, pending := p.flp.pending ++ [⟨x, .pass c body⟩] } }, none) := by
  rw [h.request, if_neg (by simp [hfree]), if_neg (Bool.eq_false_iff.1 hpass)]
  rfl

end

/-- A passthrough frame that is taken and refused is answered at once. -/
theorem passthrough_refused {s : State} {tag destination kind : Nat} {payload : List Byte} {code : Reason}
    (h : Ready (.passthrough tag destination kind payload) s.part)
    (hp : passRequest s.part.taking tag destination kind payload = (s.part.taking, some code)) :
    Answers (.passthrough tag destination kind payload) s { kind := kind, tag := tag, code := code } s.part := by
  have hreply : (s.part.taking.reply kind tag code .none).transmit = _ :=
    Part.reply_transmit kind tag code .none (fun hn => (h.1.2.2 hn).1) rfl
  show execPassthrough tag destination kind payload s = _
  unfold execPassthrough
  rw [Part.request?_ready h, hp]
  dsimp only
  rw [Part.settled_nil (p := s.part.taking) h.1.2.1, hreply]
  rfl

/-- A passthrough frame that is taken and let through gives no reply yet. -/
theorem passthrough_pending {s : State} {tag destination kind : Nat} {payload : List Byte} {q : Part}
    (h : Ready (.passthrough tag destination kind payload) s.part)
    (hp : passRequest s.part.taking tag destination kind payload = (q, none)) (ha : q.agenda = [])
    (ho : q.ofp = s.part.taking.ofp) : Leaves (.passthrough tag destination kind payload) s q := by
  show execPassthrough tag destination kind payload s = _
  unfold execPassthrough
  rw [Part.request?_ready h, hp]
  dsimp only
  rw [Part.settled_nil ha, Part.transmit_rest (by rw [ho]; exact h.1.2.2)]

/-- The reply to a passthrough that its station has answered (R174). -/
def passReply (tag kind : Nat) (payload : List Byte) : Reply :=
  { kind := kPassthrough, tag := tag, code := .ok, body := .answer kind payload, kept := true }

/-- The answer to a passthrough frame in flight ends it with its reply in the kept place (R174, R180). -/
theorem answered_pass {p : Part} {t : Transaction} {c : PassClass} {body payload : List Byte} {tag : Nat}
    (hf : p.flp.inFlight = some t) (hp : t.request.frame = .pass c body) (ht : p.flp.passHeld = some tag) (hlen : payload.length ≤ 238)
    (kind : Nat) (content : FloorAnswer) :
    p.answered ⟨stationAddress t.request.station, kind, payload⟩ content
      = { p with
          flp := { p.flp with inFlight := none }, ofp := { p.ofp with replies := p.ofp.replies ++ [passReply tag kind payload] } } := by
  unfold Part.answered Part.endPass
  simp only [hf, hp, ht, hlen, ne_eq, not_true_eq_false, if_false, if_true]
  rfl

/-- The step of such an answer: the reply in the kept place, and then the transmitter. -/
theorem leaves_passAnswer {s : State} (h : Live s.part) {t : Transaction} {c : PassClass} {body payload : List Byte} {tag : Nat}
    (hf : s.part.flp.inFlight = some t) (hp : t.request.frame = .pass c body) (ht : s.part.flp.passHeld = some tag)
    (hlen : payload.length ≤ 238) (kind : Nat) :
    Leaves (.passthroughAnswer (stationAddress t.request.station) kind payload) s
      ({ s.part with
          flp := { s.part.flp with inFlight := none },
          ofp := { s.part.ofp with replies := s.part.ofp.replies ++ [passReply tag kind payload] } } : Part).transmit := by
  refine (happens_live h
    (fun p => p.answered ⟨stationAddress t.request.station, kind, payload⟩ (parseAnswer kind payload))).trans ?_
  rw [answered_pass hf hp ht hlen, Part.settled_nil (by exact h.2.1)]

/-- Settles O39: the frame held, BUSY or BLOCKED, and the answer begun at once or behind the replies that wait. -/
theorem passthroughIsHeldUntilItsReply : Obligations.PassthroughIsHeldUntilItsReply := by
  refine ⟨fun s tag destination cls body x c h hlen hx hc => ?_, fun s kind tag payload t c body h hf hp ht hlen => ?_⟩
  · have hread : Readable destination cls body x c := ⟨hlen, hx, hc⟩
    refine ⟨fun hfree hpass => ?_, fun hheld => ?_, fun hfree hblocked => ?_⟩
    · exact passthrough_pending h (hread.pending (p := s.part.taking) hfree hpass tag) h.1.2.1 rfl
    · exact passthrough_refused h (hread.busy (p := s.part.taking) hheld tag)
    · exact passthrough_refused h (hread.blocked (p := s.part.taking) hfree hblocked tag)
  · have hanswer := leaves_passAnswer h hf hp ht hlen kind
    refine ⟨fun hs => ?_, fun hs => ?_⟩
    · have hr : s.part.ofp.replies = [] := (h.2.2 hs).1
      rw [hr, transmit_reply (by exact hs) rfl] at hanswer
      rwa [← hr] at hanswer
    · obtain ⟨f, hsending⟩ := Option.ne_none_iff_exists'.1 hs
      rwa [Part.transmit_busy (f := f) (by exact hsending)] at hanswer

end Sys2Proof.Machine.FloorLine
end

section
/-! PROOFS. The bounds of the two ports (R174, R180, R181): the places of the reply and notice queues, the sequence, and the one passthrough
that may be under way. Here stands what may happen to the ports inside a command, and, block by block, that every operation keeps their
bounds: it gives notices, requests frames that are no passthrough, and withdraws frames, and does nothing else to them. -/

namespace Sys2Proof.Machine.OfficeBounds

/-! ## The two ports -/

/-- What the bounds read of the Office Port and the Floor Port. -/
structure Ports where
  replies : List Reply
  notices : List (Nat × Notice)
  sequence : Nat
  pending : List FloorRequest
  inFlight : Option Transaction
  passHeld : Option Nat

def ports (p : Part) : Ports :=
  ⟨p.ofp.replies, p.ofp.notices, p.ofp.sequence, p.flp.pending, p.flp.inFlight, p.flp.passHeld⟩

/-- How many of some requested frames are passthroughs. -/
def passFrames (rs : List FloorRequest) : Nat := (rs.filter (fun r => r.frame.cls == 6)).length

/-- How many replies stand in the kept place. -/
def keptReplies (rs : List Reply) : Nat := (rs.filter (fun r => r.kept)).length

/-- How many replies stand in ordinary places. -/
def ordinaryReplies (rs : List Reply) : Nat := (rs.filter (fun r => !r.kept)).length

/-- How many passthroughs are in flight. -/
def passInFlight (t : Option Transaction) : Nat := (t.toList.filter (fun t => t.request.frame.cls == 6)).length

/-- How many passthroughs are under way. -/
def Ports.passes (a : Ports) : Nat := passFrames a.pending + passInFlight a.inFlight + keptReplies a.replies

/-- The bounds of the notice queue and the sequence (R181). -/
def Ports.NoticesOk (a : Ports) : Prop := a.notices.length ≤ noticeCapacity ∧ a.sequence < 65536

/-- At most one passthrough is under way, and then it is held (R174, R180). -/
def Ports.PassOk (a : Ports) : Prop := a.passes ≤ 1 ∧ (a.passes = 1 → a.passHeld.isSome = true)

theorem passOk_iff (p : Part) : PassOk p ↔ (ports p).PassOk := Iff.rfl

theorem officeOk_iff (p : Part) : OfficeOk p ↔ (ports p).NoticesOk ∧ ordinaryReplies p.ofp.replies ≤ replyCapacity :=
  ⟨fun ⟨hn, hr, hs⟩ => ⟨⟨hn, hs⟩, hr⟩, fun ⟨⟨hn, hs⟩, hr⟩ => ⟨hn, hr, hs⟩⟩

/-- From `a` to `b` no ordinary reply enters or leaves, and the other bounds are kept. -/
structure Kept (a b : Ports) : Prop where
  ordinary : ordinaryReplies b.replies = ordinaryReplies a.replies
  notices : a.NoticesOk → b.NoticesOk
  pass : a.PassOk → b.PassOk

/-- The ports keep their bounds from `p` to `q`. -/
def Keeps (p q : Part) : Prop := Kept (ports p) (ports q)

/-! ## What keeps the bounds -/

theorem Keeps.refl (p : Part) : Keeps p p := ⟨rfl, id, id⟩

theorem Keeps.trans {p q r : Part} (h : Keeps p q) (h' : Keeps q r) : Keeps p r :=
  ⟨h'.ordinary.trans h.ordinary, h'.notices ∘ h.notices, h'.pass ∘ h.pass⟩

theorem Keeps.ite {c : Prop} [Decidable c] {p a b : Part} (ha : Keeps p a) (hb : Keeps p b) : Keeps p (if c then a else b) := by
  split <;> assumption

/-- Operations that keep the bounds, carried out over a list, keep them. -/
theorem foldl_keeps {α : Type} {f : Part → α → Part} (h : ∀ p a, Keeps p (f p a)) (l : List α) (p : Part) :
    Keeps p (l.foldl f p) := by
  induction l generalizing p with
  | nil => exact .refl p
  | cons a l ih => exact (h p a).trans (ih _)

/-- With fewer passthroughs under way, or as many, and the same one held, there is still at most one. -/
theorem Ports.PassOk.mono {a b : Ports} (h : a.PassOk) (hle : b.passes ≤ a.passes) (hheld : b.passHeld = a.passHeld) : b.PassOk := by
  obtain ⟨hone, hsome⟩ := h
  exact ⟨by omega, fun hb => by rw [hheld]; exact hsome (by omega)⟩

/-- A notice joins the queue while it has room, and the sequence wraps around (R181). -/
theorem Keeps.notify {p q : Part} (h : Keeps p q) (n : Notice) : Keeps p (q.notify n) := by
  have hseq : (q.ofp.sequence + 1) % 65536 < 65536 := Nat.mod_lt _ (by decide)
  refine h.trans ?_
  unfold Part.notify OfficePort.notify
  dsimp only
  split
  · next hroom =>
    refine ⟨rfl, fun _ => ⟨?_, hseq⟩, id⟩
    show (q.ofp.notices ++ [_]).length ≤ noticeCapacity
    rw [List.length_append]
    exact hroom
  · exact ⟨rfl, fun hn => ⟨hn.1, hseq⟩, id⟩

/-- The frames of the floor line change, and not more of them are passthroughs than before. -/
theorem keeps_of_floor {p q : Part} {rs : List FloorRequest} {t : Option Transaction}
    (hq : ports q = { ports p with pending := rs, inFlight := t })
    (h : passFrames rs + passInFlight t ≤ passFrames p.flp.pending + passInFlight p.flp.inFlight) : Keeps p q := by
  unfold Keeps
  rw [hq]
  exact ⟨rfl, id, fun hp => hp.mono (by simpa [Ports.passes, ports] using h) rfl⟩

/-- The pending frames change, and no passthrough is added to them. -/
theorem keeps_of_pending {p q : Part} {rs : List FloorRequest} (hq : ports q = { ports p with pending := rs })
    (h : passFrames rs ≤ passFrames p.flp.pending) : Keeps p q :=
  keeps_of_floor (t := p.flp.inFlight) hq (Nat.add_le_add_right h _)

theorem mergeArcStop_cls (r : FloorRequest) (a : ArcStopFor) : (r.mergeArcStop a).frame.cls = r.frame.cls := by
  unfold FloorRequest.mergeArcStop
  split
  · next hr => rw [hr]; rfl
  · rfl

/-- A purpose added to the ARC STOP that is pending makes it no passthrough (log 19). -/
theorem passFrames_merge (x : Station) (a : ArcStopFor) (rs : List FloorRequest) :
    passFrames (rs.map (fun r => if r.isArcStop x then r.mergeArcStop a else r)) = passFrames rs := by
  unfold passFrames
  rw [List.filter_map, List.length_map]
  refine congrArg List.length (List.filter_congr fun r _ => ?_)
  dsimp only [Function.comp]
  split
  · rw [mergeArcStop_cls]
  · rfl

theorem passFrames_append (rs us : List FloorRequest) : passFrames (rs ++ us) = passFrames rs + passFrames us := by
  simp [passFrames]

theorem passFrames_single {r : FloorRequest} (h : (r.frame.cls == 6) = false) : passFrames [r] = 0 := by simp [passFrames, h]

/-- A requested frame that is no passthrough adds none to the pending ones (R167). -/
theorem passFrames_request {f : FloorFrame} (hf : (f.cls == 6) = false) (o : FloorPort) (x : Station) :
    passFrames (o.request x f).pending = passFrames o.pending := by
  have happend : passFrames (o.pending ++ [⟨x, f⟩]) = passFrames o.pending := by
    rw [passFrames_append, passFrames_single hf, Nat.add_zero]
  unfold FloorPort.request
  split
  · split
    · exact passFrames_merge ..
    · exact happend
  · exact happend

/-- A request changes the pending frames alone. -/
theorem ports_request (p : Part) (x : Station) (f : FloorFrame) :
    ports (p.request x f) = { ports p with pending := (p.flp.request x f).pending } := by
  unfold Part.request FloorPort.request
  split
  · split <;> rfl
  · rfl

theorem Keeps.request {p q : Part} (h : Keeps p q) (x : Station) {f : FloorFrame} (hf : (f.cls == 6) = false) :
    Keeps p (q.request x f) :=
  h.trans (keeps_of_pending (ports_request q x f) (Nat.le_of_eq (passFrames_request hf ..)))

theorem Keeps.withdraw {p q : Part} (h : Keeps p q) (what : FloorRequest → Bool) : Keeps p (q.withdraw what) :=
  h.trans (keeps_of_pending (rs := q.flp.pending.filter (fun r => !what r)) rfl (List.filter_sublist.filter _).length_le)

/-! ## The Hall Map (chapters 1 and 2) -/

theorem setContent_keeps (p : Part) (b : Bed) (plate : Option Tag) (skeleton partlyCut : Bool) :
    Keeps p (p.setContent b plate skeleton partlyCut) := by
  unfold Part.setContent
  dsimp only
  split <;> split <;> exact .refl p

theorem bedJobEnd_keeps (p : Part) (e : JobEnding) (remnant : Option Nat) : Keeps p (p.bedJobEnd e remnant) :=
  .ite (setContent_keeps ..) (.ite (.refl p) (setContent_keeps ..))

theorem setBed_keeps (p : Part) (b : Bed) (r : BedRec) : Keeps p (p.setBed b r) := .refl p

theorem grantBed_keeps (p : Part) (q : BedRequest) : Keeps p (p.grantBed q) := by
  cases q with
  | burn g b => exact .refl p
  | claim n beds => exact foldl_keeps (fun p b => setBed_keeps p b _) _ (p.withdrawBed (.order n))

theorem requestBed_keeps (p : Part) (q : BedRequest) : Keeps p (p.requestBed q).1 := by
  unfold Part.requestBed
  split
  · exact grantBed_keeps p q
  · exact foldl_keeps (fun p b => setBed_keeps p b _) _ p

theorem offer_keeps (p : Part) (b : Bed) : Keeps p (p.offer b) := by
  unfold Part.offer
  refine .ite (.refl p) ?_
  split
  · exact grantBed_keeps ..
  · exact .refl p

theorem withdrawDuePoll_keeps (p : Part) (c : Crane) : Keeps p (p.withdrawDuePoll c) := (Keeps.refl _).withdraw _

theorem takeReport_keeps (p : Part) (c : Crane) (r : Report) : Keeps p (p.takeReport c r) := by
  have hpoll := withdrawDuePoll_keeps (p.setCrane c { p.crane c with last := some r, age := 0 }) c
  exact .ite hpoll hpoll

theorem takeRecovery_keeps (p : Part) (c : Crane) (r : Report) : Keeps p (p.takeRecovery c r) := by
  unfold Part.takeRecovery
  exact .notify (.refl p) _

theorem takePosition_keeps (p : Part) (c : Crane) (x y : Int) (hookLow loaded : Bool) :
    Keeps p (p.takePosition c x y hookLow loaded) := by
  unfold Part.takePosition
  split
  · exact takeReport_keeps ..
  · exact takeRecovery_keeps ..
  · exact .refl p

theorem loseCrane_keeps (p : Part) (c : Crane) (cause : LossCause) : Keeps p (p.loseCrane c cause) :=
  .ite (withdrawDuePoll_keeps (p.setCrane c { p.crane c with state := .lost }) c) (.refl p)

/-! ## The Job Store (chapter 3) -/

theorem writeRecord_keeps (p : Part) (j : JobNo) (i : Nat) (r : Record) : Keeps p (p.writeRecord j i r) := by
  unfold Part.writeRecord
  split <;> exact .refl p

theorem writeRecords_keeps (p : Part) (j : JobNo) (i : Nat) (rs : List Record) : Keeps p (p.writeRecords j i rs) := by
  induction rs generalizing p i with
  | nil => exact .refl p
  | cons r rs ih => exact (writeRecord_keeps ..).trans (ih ..)

theorem popCompletion_keeps {p q : Part} {j : JobNo} (h : p.popCompletion = some (j, q)) : Keeps p q := by
  unfold Part.popCompletion at h
  split at h
  · cases h
  · cases h; exact .refl p

theorem activateHead_keeps (p : Part) (g : Gantry) (j : JobNo) : Keeps p (p.activateHead g j) := by
  unfold Part.activateHead
  exact .ite (.notify (.refl p) _) (.refl p)

theorem settleJob_keeps (p : Part) (g : Gantry) (j : JobNo) (c : Completion) : Keeps p (p.settleJob g j c) := by
  have hw : Keeps p (p.writeRecord j 1 (.completion c)) := writeRecord_keeps ..
  unfold Part.settleJob
  exact .ite hw (.ite (.notify hw _) hw)

/-! ## The Mark Sequencer (chapter 7) -/

theorem endPhase_keeps (p : Part) (g : Gantry) (phase : MarkPhase) : Keeps p (p.endPhase g phase) := by
  have hended : Keeps p (p.setMarks g { p.marks g with phase := .none }) := .refl p
  have hbatch : Keeps p ((p.setMarks g { p.marks g with phase := .none }).batchNotice g phase) :=
    .ite (hended.notify _) hended
  exact hbatch

theorem sendText_keeps (p : Part) (g : Gantry) (e : MarkEntry) (x : Fin 4) (point : Point) : Keeps p (p.sendText g e x point) := by
  unfold Part.sendText
  exact .request (.refl p) _ rfl

theorem markPump_keeps (p : Part) (g : Gantry) : Keeps p (p.markPump g) := by
  unfold Part.markPump
  refine .ite ?_ (.refl p)
  split
  · exact .ite (endPhase_keeps ..) (.refl p)
  · exact .refl p
  · split
    · exact .refl p
    · split
      · exact sendText_keeps ..
      · exact .refl p

theorem applyMark_keeps (p : Part) (g : Gantry) (x : Fin 4) (f : MarkSlot) (e : MarkEntry) (ok : Bool) :
    Keeps p (p.applyMark g x f e ok) := by
  unfold Part.applyMark
  exact .ite (.notify (.refl p) _) (.refl p)

theorem endRetry_keeps (p : Part) (g : Gantry) (ok : Bool) : Keeps p (p.endRetry g ok) := by
  unfold Part.endRetry
  cases ok
  · exact endPhase_keeps p g .retry
  · exact endPhase_keeps (p.setEngine g { p.engine g with held := { (p.engine g).held with markDecision := false } }) g .retry

theorem markDone_keeps (p : Part) (g : Gantry) (slot : Nat) (ok : Bool) : Keeps p (p.markDone g slot ok) := by
  unfold Part.markDone
  refine .ite (.refl p) ?_
  split
  · exact .refl p
  · next x _ =>
    split
    · exact .refl p
    · next f _ =>
      refine .ite ?_ (.refl p)
      split
      · exact .refl p
      · next e _ =>
        have hmark := applyMark_keeps (p.setMarks g ((p.marks g).free x)) g x f e ok
        exact .ite (hmark.trans (endRetry_keeps _ g ok)) hmark

theorem markRefused_keeps (p : Part) (g : Gantry) (x : Fin 4) (code : Nat) : Keeps p (p.markRefused g x code) := by
  unfold Part.markRefused
  split
  · exact .refl p
  · exact .ite (.refl p) (.refl p)

theorem decideRetry_keeps (p : Part) (g : Gantry) (part : Nat) : Keeps p (p.decideRetry g part) := by
  unfold Part.decideRetry
  exact .ite (.refl p) (.ite (.refl p) (.refl p))

theorem decideStatus_keeps (p : Part) (g : Gantry) (part : Nat) (status : MarkStatus) : Keeps p (p.decideStatus g part status) := by
  unfold Part.decideStatus
  exact .ite (.refl p) (.refl p)

theorem markJobEnd_keeps (p : Part) (g : Gantry) : Keeps p (p.markJobEnd g) := by
  unfold Part.markJobEnd
  exact .withdraw (.refl p) _

theorem emptyMarks_keeps (p : Part) (g : Gantry) (clearUnderflow : Bool) : Keeps p (p.emptyMarks g clearUnderflow) := by
  unfold Part.emptyMarks
  exact .withdraw (.refl p) _

/-! ## Height references (chapter 6) -/

theorem requestReference_keeps (p : Part) (g : Gantry) : Keeps p (p.requestReference g) :=
  .ite (.refl p) (.request (.refl p) _ rfl)

theorem enterReference_keeps (p : Part) (g : Gantry) (ret : RefReturn) : Keeps p (p.enterReference g ret) :=
  requestReference_keeps (p.setEngine g { p.engine g with state := .reference, refReturn := some ret }) g

theorem withdrawReference_keeps (p : Part) (g : Gantry) : Keeps p (p.withdrawReference g) := .withdraw (.refl p) _

theorem actOnReturn_keeps (p : Part) (g : Gantry) : Keeps p (p.actOnReturn g) := by
  unfold Part.actOnReturn
  dsimp only
  split
  · exact .refl p
  · split
    · exact .ite (.refl p) (.refl p)
    · exact .refl p
  · exact .refl p

theorem idleReference_keeps (p : Part) (g : Gantry) : Keeps p (p.idleReference g) :=
  .ite (requestReference_keeps (p.setEngine g { p.engine g with idleReference := true }) g) (.refl p)

theorem releaseAsk_keeps (p : Part) (g : Gantry) : Keeps p (p.releaseAsk g) := by
  unfold Part.releaseAsk
  dsimp only
  split <;> exact .refl p

theorem afterIdleDone_keeps (p : Part) (g : Gantry) : Keeps p (p.afterIdleDone g) :=
  .ite (.ite (releaseAsk_keeps p g) (.refl p)) (.refl p)

theorem referenceDone_keeps (p : Part) (g : Gantry) : Keeps p (p.referenceDone g) := by
  have hwithdrawn := withdrawReference_keeps (p.setEngine g (p.engine g).countReference) g
  unfold Part.referenceDone
  refine .ite (.refl p) ?_
  dsimp only
  split
  · exact .ite (hwithdrawn.trans (actOnReturn_keeps ..)) (requestReference_keeps (p.setEngine g (p.engine g).countReference) g)
  · exact .ite (.refl p) (hwithdrawn.trans (afterIdleDone_keeps (((p.setEngine g _).withdrawReference g).setEngine g _) g))
  · exact .refl p

/-! ## The Burn Dispatcher (chapter 5) -/

theorem ownBed_keeps (p : Part) (g : Gantry) : Keeps p (p.ownBed g) := .ite (.refl p) (.refl p)

theorem takeUp_keeps (p : Part) (g : Gantry) : Keeps p (p.takeUp g) := by
  unfold Part.takeUp
  refine .ite ?_ (.refl p)
  split
  · exact .refl p
  · next b _ =>
    refine .ite (.refl p) ?_
    have hr := requestBed_keeps p (.burn g b)
    split
    · next hq => rw [hq] at hr; exact hr.trans (ownBed_keeps ..)
    · next hq => rw [hq] at hr; exact hr

theorem gantryGranted_keeps (p : Part) (g : Gantry) : Keeps p (p.gantryGranted g) := .ite (ownBed_keeps p g) (.refl p)

theorem checkRegistration_keeps (p : Part) (g : Gantry) (b : Bed) (tag : Tag) : Keeps p (p.checkRegistration g b tag) := by
  unfold Part.checkRegistration
  exact .ite (.refl p) (.request (.refl p) _ rfl)

theorem startJob_keeps (p : Part) (g : Gantry) : Keeps p (p.startJob g) := by
  unfold Part.startJob
  split
  · exact .refl p
  · next j _ =>
    have hactive := activateHead_keeps p g j
    split
    · refine .ite ?_ hactive
      dsimp only
      split
      · exact hactive
      · exact hactive.trans (checkRegistration_keeps (Part.handTexts (Part.setEngine _ g _) g j) g _ _)
    · exact .refl p

theorem registered_keeps (p : Part) (g : Gantry) (ox oy k : Int) : Keeps p (p.registered g ox oy k) := by
  unfold Part.registered
  refine .ite ?_ (.refl p)
  split
  · exact .refl p
  · refine .ite (.refl p) (.ite (.refl p) ?_)
    split <;> exact .refl p

theorem registerFailed_keeps (p : Part) (g : Gantry) : Keeps p (p.registerFailed g) := .ite (.refl p) (.refl p)

theorem passOver_keeps (p : Part) (g : Gantry) (j : JobNo) (i : Nat) : Keeps p (p.passOver g j i) := by
  unfold Part.passOver
  split
  · exact .refl p
  · dsimp only
    split <;> exact .refl p

theorem enterPart_keeps (p : Part) (g : Gantry) (j : JobNo) (i : Nat) : Keeps p (p.enterPart g j i) := by
  unfold Part.enterPart
  dsimp only
  split <;> exact .refl p

theorem holdAt_keeps (p : Part) (g : Gantry) (part : Nat) (reasons : Held) (entry : Bool) :
    Keeps p (p.holdAt g part reasons entry) := by
  have hheld : Keeps p (p.setEngine g { p.engine g with state := .held, held := reasons }) := .refl p
  unfold Part.holdAt
  dsimp only
  split
  · exact .ite (.notify hheld _) (.notify hheld _)
  · exact .ite hheld hheld

theorem boundary_keeps (p : Part) (g : Gantry) (entry : Bool) : Keeps p (p.boundary g entry) := by
  unfold Part.boundary
  dsimp only
  split
  · split
    · exact passOver_keeps (p.setEngine g _) g _ _
    · refine .ite (.trans ?_ (holdAt_keeps ..)) (.ite (.trans ?_ (enterReference_keeps ..)) (.trans ?_ (enterPart_keeps ..)))
      all_goals split <;> exact .refl p
  · exact .refl p

theorem preparePierce_keeps (p : Part) (g : Gantry) : Keeps p (p.preparePierce g) := by
  unfold Part.preparePierce
  dsimp only
  split
  · split
    · refine .ite (enterReference_keeps ..) ?_
      split
      · exact .refl p
      · exact .request (.refl p) _ rfl
    · exact .refl p
  · exact .refl p

theorem pierceOk_keeps (p : Part) (g : Gantry) : Keeps p (p.pierceOk g) := by
  unfold Part.pierceOk
  dsimp only
  split
  · exact .refl p
  · exact .ite (.refl p) (.refl p)
  · exact .refl p

theorem pierceFailed_keeps (p : Part) (g : Gantry) : Keeps p (p.pierceFailed g) := .ite (.ite (.refl p) (.refl p)) (.refl p)

theorem withdrawSegments_keeps (p : Part) (g : Gantry) : Keeps p (p.withdrawSegments g) := by
  unfold Part.withdrawSegments
  exact .withdraw (.refl p) _

theorem travelStop_keeps (p : Part) (g : Gantry) (i : Nat) : Keeps p (p.travelStop g i) := by
  unfold Part.travelStop
  exact .notify (.request (withdrawSegments_keeps p g) _ rfl) _

theorem sendSegment_keeps (p : Part) (g : Gantry) (i : Nat) (r : Record) : Keeps p (p.sendSegment g i r) := by
  unfold Part.sendSegment
  split
  · exact travelStop_keeps ..
  · exact .request (.refl p) _ rfl

theorem stream_keeps (p : Part) (g : Gantry) : Keeps p (p.stream g) := by
  unfold Part.stream
  dsimp only
  split
  · split
    · exact .ite (sendSegment_keeps ..) (.refl p)
    · exact .ite (sendSegment_keeps ..) (.refl p)
    · exact .ite (sendSegment_keeps ..) (.refl p)
    · exact .ite (.refl p) (.refl p)
    · exact .ite (.refl p) (.refl p)
    · exact .ite (.refl p) (.refl p)
    · exact .refl p
  · exact .refl p

theorem segmentsDone_keeps (p : Part) (g : Gantry) (count : Nat) : Keeps p (p.segmentsDone g count) := by
  have hwithdrawn := (Keeps.refl p).withdraw (carriesRecord g ((p.engine g).outstanding.take count))
  unfold Part.segmentsDone
  exact .ite (.ite (.refl p) (.ite (.refl p) (.ite hwithdrawn hwithdrawn))) (.refl p)

theorem stopCut_keeps (p : Part) (g : Gantry) : Keeps p (p.stopCut g) := by
  have hstop : Keeps p ((p.withdrawSegments g).request (gantryStation g) (.arcStop .engine)) :=
    .request (withdrawSegments_keeps p g) _ rfl
  unfold Part.stopCut
  exact .ite hstop hstop

theorem stopPierce_keeps (p : Part) (g : Gantry) : Keeps p (p.stopPierce g) := by
  have hwithdrawn := (Keeps.refl p).withdraw (fun r => r.station = gantryStation g && r.frame.kind == 0x05)
  have hstop : Keeps p (p.request (gantryStation g) (.arcStop .engine)) := .request (.refl p) _ rfl
  unfold Part.stopPierce
  exact .ite hwithdrawn hstop

theorem arrival_keeps (p : Part) (g : Gantry) : Keeps p (p.arrival g) := by
  unfold Part.arrival
  dsimp only
  split
  · exact (stopCut_keeps p g).notify _
  · exact (stopPierce_keeps p g).notify _
  · exact .refl p
  · exact .refl p

theorem resume_keeps (p : Part) (g : Gantry) (i fraction : Nat) : Keeps p (p.resume g i fraction) := by
  unfold Part.resume
  dsimp only
  split
  · exact .refl p
  · split
    · exact .refl p
    · split
      · exact travelStop_keeps ..
      · exact .request (.refl p) _ rfl

theorem clearance_keeps (p : Part) (g : Gantry) : Keeps p (p.clearance g) := by
  unfold Part.clearance
  dsimp only
  split
  · exact .refl p
  · split
    · exact resume_keeps ..
    · exact .refl p
  · exact .refl p

theorem stoppedAt_keeps (p : Part) (g : Gantry) (i fraction : Nat) : Keeps p (p.stoppedAt g i fraction) := by
  unfold Part.stoppedAt
  exact .ite (.ite (.ite (resume_keeps (p.setEngine g _) g i fraction) (.refl p)) (.refl p)) (.refl p)

theorem faultWithoutJob_keeps (p : Part) (g : Gantry) (cause : StateCause) (code : Option Nat) :
    Keeps p (p.faultWithoutJob g cause code) := by
  have hask : Keeps p ((p.releaseAsk g).setEngine g
      { (p.releaseAsk g).engine g with state := .fault, idleReference := false, refReturn := none }) := releaseAsk_keeps p g
  unfold Part.faultWithoutJob
  exact hask.notify _

theorem machine_keeps (p : Part) (g : Gantry) (code : Nat) (arcStop : Bool) : Keeps p (p.machine g code arcStop) := by
  have hwithdrawn : Keeps p (p.withdraw (isDispatch g)) := .withdraw (.refl p) _
  unfold Part.machine
  refine .ite (.ite (.request hwithdrawn _ rfl) hwithdrawn) ?_
  split
  · exact hwithdrawn.trans (faultWithoutJob_keeps ..)
  · exact hwithdrawn.trans (faultWithoutJob_keeps ..)
  · exact .refl p

theorem engineLost_keeps (p : Part) (g : Gantry) : Keeps p (p.engineLost g) := by
  unfold Part.engineLost
  refine .ite (.refl p) ?_
  split
  · exact faultWithoutJob_keeps ..
  · exact faultWithoutJob_keeps ..
  · exact .refl p

theorem jobEnd_keeps (p : Part) (g : Gantry) (outcome : JobOutcome) (stop : Option Nat) (goes : EndTo) :
    Keeps p (p.jobEnd g outcome stop goes) := by
  unfold Part.jobEnd
  dsimp only
  split
  · exact .refl p
  · split
    · exact settleJob_keeps ..
    · exact .refl p

theorem engineEnd_keeps (p : Part) (g : Gantry) (x : JobEnding) : Keeps p (p.engineEnd g x) := by
  have hwithdrawn : Keeps p (p.withdraw (isDispatch g)) := .withdraw (.refl p) _
  unfold Part.engineEnd
  dsimp only
  split
  · exact hwithdrawn
  · exact hwithdrawn
  · exact .notify (q := (p.withdraw (isDispatch g)).setEngine g _) hwithdrawn _

theorem gantryAck_keeps (p : Part) (g : Gantry) (f : FloorFrame) : Keeps p (p.gantryAck g f) := by
  unfold Part.gantryAck
  dsimp only
  split
  · exact .refl p
  · split <;> exact .refl p
  · exact .refl p

theorem faultEvent_keeps (p : Part) (g : Gantry) (code : Nat) : Keeps p (p.faultEvent g code) := by
  unfold Part.faultEvent
  split <;> exact .refl p

theorem gantryRefuse_keeps (p : Part) (g : Gantry) (f : FloorFrame) (code : Nat) : Keeps p (p.gantryRefuse g f code) := by
  unfold Part.gantryRefuse
  dsimp only
  split
  · exact .ite (faultWithoutJob_keeps ..) (.refl p)
  · exact .ite (.refl p) (.refl p)
  · exact .refl p
  · exact .ite (.refl p) (.refl p)
  · exact markRefused_keeps ..
  · exact .refl p
  · exact .refl p
  · exact .ite (.refl p) (.refl p)

theorem gantryEvent_keeps (p : Part) (g : Gantry) (e : GantryEvent) : Keeps p (p.gantryEvent g e) := by
  cases e with
  | registered ox oy k => exact registered_keeps ..
  | registerFailed => exact registerFailed_keeps ..
  | referenceDone => exact referenceDone_keeps ..
  | pierceOk => exact pierceOk_keeps ..
  | pierceFailed => exact pierceFailed_keeps ..
  | segmentsDone n => exact segmentsDone_keeps ..
  | markDone x ok => exact markDone_keeps ..
  | stoppedAt i f => exact stoppedAt_keeps ..
  | fault code => exact faultEvent_keeps ..

end Sys2Proof.Machine.OfficeBounds
end

section
/-! PROOFS. The bounds of the two ports, continued (R174, R180, R181): the Crane Order Unit, the Remnant Stock Unit, every hand-off, and
the requests of the supervisor. -/

namespace Sys2Proof.Machine.OfficeBounds

/-! ## The Remnant Stock Unit (chapter 9) -/

theorem changeRemnant_keeps (p : Part) (n : Nat) (f : Remnant → Remnant) : Keeps p (p.changeRemnant n f) := by
  unfold Part.changeRemnant
  split <;> exact .refl p

theorem remnantSet_keeps (p : Part) (n : Nat) (location : Option Location) (state : Option RemnantState) :
    Keeps p (p.remnantSet n location state) := changeRemnant_keeps ..

theorem remnantGone_keeps (p : Part) (n : Nat) : Keeps p (p.remnantGone n) := .ite (.refl p) (.refl p)

theorem changeSlot_keeps (p : Part) (k : SlotNo) (f : SlotRec → SlotRec) : Keeps p (p.changeSlot k f) := .refl p

theorem pushSlot_keeps (p : Part) (k : SlotNo) (n : Nat) (claim : Option OrderNo) (state : Option RemnantState) :
    Keeps p (p.pushSlot k n claim state) := (changeSlot_keeps p k _).trans (remnantSet_keeps ..)

theorem settleBurned_keeps (p : Part) (e : JobEnding) : Keeps p (p.settleBurned e) := by
  unfold Part.settleBurned
  split
  · exact .refl p
  · exact .ite (remnantGone_keeps ..) (changeRemnant_keeps ..)

theorem settleLeft_keeps (p : Part) (e : JobEnding) : Keeps p (p.settleLeft e).1 := by
  unfold Part.settleLeft
  split
  · exact .refl p
  · split
    · split
      · exact .notify (.refl p) _
      · exact .notify (.refl p) _
    · exact .refl p

theorem settleStock_keeps (p : Part) (g : Gantry) (e : JobEnding) : Keeps p (p.settleStock g e) :=
  (settleBurned_keeps p e).trans (settleLeft_keeps _ e)

theorem stockTold_keeps (p : Part) (n : OrderNo) (endState : OrderState) : Keeps p (p.stockTold n endState) := by
  unfold Part.stockTold
  split
  · exact .refl p
  · exact .ite (.refl p) (.refl p)

theorem putRemnant_keeps (p : Part) (n : Nat) (loc : Bed ⊕ SlotNo) : Keeps p (p.putRemnant n loc) := by
  cases loc with
  | inl b => exact (remnantSet_keeps ..).trans (setContent_keeps ..)
  | inr k => exact pushSlot_keeps ..

/-! ## The Crane Order Unit (chapter 8) -/

theorem placeOrder_keeps {p q : Part} {o : Order} {n : OrderNo} (h : p.placeOrder o = some (q, n)) : Keeps p q := by
  unfold Part.placeOrder at h
  split at h
  · cases h
  · cases h
    exact .ite (.refl p) (.refl p)

theorem placeOrders_keeps (os : List Order) (p : Part) : Keeps p (p.placeOrders os).1 := by
  induction os generalizing p with
  | nil => exact .refl p
  | cons o os ih =>
      unfold Part.placeOrders
      split
      · next h => exact (placeOrder_keeps h).trans (ih _)
      · exact ih p

theorem placeList_keeps {p q : Part} {c : Crane} {os : List Order} {ns : List OrderNo} (h : p.placeList c os = .ok (q, ns)) :
    Keeps p q := by
  unfold Part.placeList at h
  split at h
  · cases h
  · split at h
    · cases h
    · have hk := placeOrders_keeps os p
      rwa [Except.ok.inj h] at hk

theorem slotClaim_keeps (p : Part) (x : Place) (claim : Option OrderNo) : Keeps p (p.slotClaim x claim) := by
  unfold Part.slotClaim
  split <;> exact .refl p

theorem withdrawClaim_keeps (p : Part) (n : OrderNo) (o : Order) : Keeps p (p.withdrawClaim n o) := .ite (.refl p) (.refl p)

theorem requestOrder_keeps (p : Part) (n : OrderNo) (o : Order) : Keeps p (p.requestOrder n o) := .request (.refl p) _ rfl

theorem release_keeps (p : Part) (n : OrderNo) : Keeps p (p.release n) := by
  unfold Part.release
  split
  · exact .refl p
  · next o _ =>
    have hclaimed := (slotClaim_keeps p o.source (some n)).trans (slotClaim_keeps _ o.destination (some n))
    dsimp only
    split
    · exact (hclaimed.trans (remnantSet_keeps ..)).trans (requestOrder_keeps _ n o)
    · exact hclaimed.trans (requestOrder_keeps _ n o)

theorem evalOrder_keeps (p : Part) (n : OrderNo) (o : Order) : Keeps p (p.evalOrder n o) := by
  unfold Part.evalOrder
  refine .ite (withdrawClaim_keeps p n o) (.ite (release_keeps ..) (.ite (.refl p) ?_))
  have hr := requestBed_keeps p (.claim n o.claims)
  split
  · next hq => rw [hq] at hr; exact hr.trans (release_keeps ..)
  · next hq => rw [hq] at hr; exact hr

theorem evalHead_keeps (p : Part) (c : Crane) : Keeps p (p.evalHead c) := by
  unfold Part.evalHead
  split
  · exact .refl p
  · split
    · exact .refl p
    · exact .ite (evalOrder_keeps ..) (.refl p)

theorem orderGranted_keeps (p : Part) (n : OrderNo) : Keeps p (p.orderGranted n) := by
  unfold Part.orderGranted
  split
  · exact .ite (release_keeps p n) (.refl p)
  · exact .refl p

theorem craneReport_keeps (p : Part) (c : Crane) : Keeps p (p.craneReport c) := by
  unfold Part.craneReport
  split
  · exact .refl p
  · exact .ite (.ite (requestOrder_keeps ..) (.refl p)) (evalHead_keeps p c)

theorem freePlace_keeps (p : Part) (x : Place) (held : Bool) : Keeps p (p.freePlace x held) := by
  unfold Part.freePlace
  refine .ite ?_ (.refl p)
  split
  · exact .refl p
  · exact slotClaim_keeps ..

theorem restoreRemnant_keeps (p : Part) (o : Order) (location : Option Location) : Keeps p (p.restoreRemnant o location) := by
  unfold Part.restoreRemnant
  split <;> exact .refl p

theorem orderAck_keeps (p : Part) (n : OrderNo) : Keeps p (p.orderAck n) := by
  unfold Part.orderAck
  split
  · exact .ite (.refl p) (.refl p)
  · exact .refl p

theorem abortOrder_keeps (p : Part) (n : OrderNo) (o : Order) (cause : OrderCause) : Keeps p (p.abortOrder n o cause) := by
  have hfreed := (freePlace_keeps (p.setOrder n (some { o with sourceClaim := false, destClaim := false })) o.source o.sourceClaim).trans
    (freePlace_keeps _ o.destination o.destClaim)
  exact hfreed.trans (restoreRemnant_keeps ..)

theorem orderRefuse_keeps (p : Part) (n : OrderNo) (code : Nat) : Keeps p (p.orderRefuse n code) := by
  unfold Part.orderRefuse
  split
  · exact .ite (abortOrder_keeps ..) (.refl p)
  · exact .refl p

theorem picked_keeps (p : Part) (n : OrderNo) : Keeps p (p.picked n) := by
  unfold Part.picked
  split
  · exact .refl p
  · next o _ =>
    dsimp only
    split
    · split <;> refine .trans ?_ (freePlace_keeps _ o.source o.sourceClaim)
      all_goals split <;> exact setContent_keeps (p.setOrder n _) ..
    · split <;> exact .refl p
    · exact .refl p

theorem placed_keeps (p : Part) (n : OrderNo) : Keeps p (p.placed n) := by
  unfold Part.placed
  split
  · exact .refl p
  · next o _ =>
    dsimp only
    split
    · refine .trans ?_ ((freePlace_keeps _ o.destination o.destClaim).trans (restoreRemnant_keeps ..))
      split
      · exact setContent_keeps (p.setOrder n _) ..
      · exact .refl p
    · split
      · exact pushSlot_keeps (p.setOrder n _) ..
      · exact .refl p
    · split <;> exact .refl p
    · exact restoreRemnant_keeps (p.setOrder n _) o none

theorem orderEvent_keeps (p : Part) (c : Crane) (k : OrderEventKind) (n : OrderNo) : Keeps p (p.orderEvent c k n) := by
  unfold Part.orderEvent
  split
  · exact .refl p
  · refine .ite ?_ (.refl p)
    split
    · exact picked_keeps p n
    · exact .ite (placed_keeps p n) (.refl p)
    · exact placed_keeps p n
    · exact abortOrder_keeps ..
    · exact abortOrder_keeps ..
    · exact .refl p

theorem orderEnd_keeps (p : Part) (n : OrderNo) (endState : OrderState) (cause : Option OrderCause) (cascade : Bool) :
    Keeps p (p.orderEnd n endState cause cascade) := by
  unfold Part.orderEnd
  split
  · exact .refl p
  · next o _ =>
    have hunqueued : Keeps p ((p.withdrawClaim n o).setOrderQueue o.crane ((p.orderQueue o.crane).filter (· != n))) :=
      withdrawClaim_keeps p n o
    have hended := hunqueued.notify (.craneOrder n o.crane o.origin o.source o.destination o.load endState cause o.requestTag)
    exact .ite (.ite hended hended) (.ite hended hended)

theorem cancelRestack_keeps (p : Part) (n : OrderNo) : Keeps p (p.cancelRestack n) := by
  unfold Part.cancelRestack
  split
  · exact .ite (.refl p) (.refl p)
  · exact .refl p

/-! ## Hand-offs -/

/-- Every hand-off keeps the bounds of the ports. -/
theorem micro_keeps (p : Part) (t : Task) : Keeps p (p.micro t) := by
  cases t with
  | offer b => exact offer_keeps p b
  | contentReport b => exact .refl p
  | releaseOwner b => exact .refl p
  | releaseClaim b => exact .refl p
  | craneReport c => exact craneReport_keeps p c
  | evalHead c => exact evalHead_keeps p c
  | evalNewHead c before => exact .ite (.refl p) (evalHead_keeps p c)
  | slotReport k => exact .refl p
  | remnantReport n => exact .refl p
  | orderGranted n => exact orderGranted_keeps p n
  | gantryGranted g => exact gantryGranted_keeps p g
  | takeUp g => exact takeUp_keeps p g
  | idleReference g => exact idleReference_keeps p g
  | startJob g => exact startJob_keeps p g
  | jobEnd g outcome stop goes => exact jobEnd_keeps ..
  | settleStock g e => exact settleStock_keeps p g e
  | bedJobEnd e remnant => exact bedJobEnd_keeps ..
  | markJobEnd g => exact markJobEnd_keeps p g
  | engineEnd g e => exact engineEnd_keeps p g e
  | finishDisable g => exact emptyMarks_keeps p g false
  | markPump g => exact markPump_keeps p g
  | boundary g entry => exact boundary_keeps ..
  | stream g => exact stream_keeps p g
  | preparePierce g => exact preparePierce_keeps p g
  | arrival g => exact arrival_keeps p g
  | clearance g => exact clearance_keeps p g
  | machine g code arcStop => exact machine_keeps ..
  | engineLost g => exact engineLost_keeps p g
  | craneStationLost c => exact loseCrane_keeps ..
  | orderEnd n endState cause cascade => exact orderEnd_keeps ..
  | stockTold n endState => exact stockTold_keeps ..
  | cancelRestack n => exact cancelRestack_keeps p n
  | picked n => exact picked_keeps p n
  | placed n => exact placed_keeps p n
  | remnantSet n location state => exact remnantSet_keeps ..
  | remnantGone n => exact remnantGone_keeps p n
  | gantryEvent g e => exact gantryEvent_keeps p g e
  | orderEvent c k n => exact orderEvent_keeps ..
  | notice n => exact .notify (.refl p) n

theorem settle_keeps (k : Nat) (p : Part) : Keeps p (settle k p) := by
  induction k generalizing p with
  | zero => exact .refl p
  | succ k ih =>
      unfold settle
      split
      · exact .refl p
      · next t rest _ =>
        have hrun : Keeps p (p.runFirst t rest) := micro_keeps { p with agenda := [] } t
        exact hrun.trans (ih _)

theorem settled_keeps (p : Part) : Keeps p p.settled := settle_keeps Config.agendaFuel p

end Sys2Proof.Machine.OfficeBounds
end

section
/-! PROOFS. The bounds of the two ports, continued (R174, R180, R181): the requests of the supervisor and the events of the two lines. -/

namespace Sys2Proof.Machine.OfficeBounds

/-! ## The shapes of a request -/

theorem checked_keeps {p : Part} {checks : List (Bool × Reason)} {body : Answered} (h : Keeps p body.1) :
    Keeps p (checked p checks body).1 := by
  unfold checked
  split
  · exact h
  · exact .refl p

theorem indexed_keeps {k : Nat} {p : Part} {i : Nat} {body : Fin k → Answered} (h : ∀ x, Keeps p (body x).1) :
    Keeps p (indexed p i body).1 := by
  unfold indexed
  split
  · exact h _
  · exact .refl p

theorem allocated_keeps {p : Part} {job : Nat} {body : JobNo → JobEntry → Answered} (h : ∀ j e, Keeps p (body j e).1) :
    Keeps p (allocated p job body).1 := by
  unfold allocated
  split
  · split
    · exact .refl p
    · exact h _ _
  · exact .refl p

theorem recorded_keeps {p : Part} {n : Nat} {body : Remnant → Answered} (h : ∀ r, Keeps p (body r).1) :
    Keeps p (recorded p n body).1 := by
  unfold recorded
  split
  · exact h _
  · exact .refl p

/-! ## The requests of the Job Store (chapter 3) -/

theorem jobOpen_keeps (p : Part) (pages : Nat) : Keeps p (jobOpen p pages).1 := by
  unfold jobOpen
  split
  · exact .refl p
  · split
    · exact .refl p
    · split <;> exact .refl p

theorem jobWrite_keeps (p : Part) (job offset : Nat) (records : List (List Byte)) : Keeps p (jobWrite p job offset records).1 := by
  refine allocated_keeps fun j e => checked_keeps ?_
  split
  · exact writeRecords_keeps ..
  · exact .refl p

theorem jobRead_keeps (p : Part) (job offset count : Nat) : Keeps p (jobRead p job offset count).1 :=
  allocated_keeps fun _ _ => checked_keeps (.refl p)

theorem jobEnqueue_keeps (p : Part) (job gantry : Nat) : Keeps p (jobEnqueue p job gantry).1 := by
  refine allocated_keeps fun j e => indexed_keeps fun g => ?_
  dsimp only
  split
  · exact .refl p
  · split
    · exact checked_keeps (.ite (.refl p) (.refl p))
    · exact .refl p

theorem jobRelease_keeps (p : Part) (job : Nat) : Keeps p (jobRelease p job).1 := by
  refine allocated_keeps fun j e => ?_
  split <;> exact .refl p

theorem completionAck_keeps (p : Part) : Keeps p (completionAck p).1 := by
  unfold completionAck
  split
  · exact .refl p
  · next h => exact popCompletion_keeps h

theorem completionAckAndRelease_keeps (p : Part) : Keeps p (completionAckAndRelease p).1 := by
  unfold completionAckAndRelease
  split
  · exact .refl p
  · next h =>
    have hpopped := popCompletion_keeps h
    exact hpopped

/-! ## The requests of the Burn Dispatcher and the Mark Sequencer (chapters 5 and 7) -/

theorem gantryEnable_keeps (p : Part) (gantry : Nat) : Keeps p (gantryEnable p gantry).1 :=
  indexed_keeps fun g => checked_keeps <| by
    have hempty := emptyMarks_keeps (p.setRegistration g none) g true
    exact Keeps.request (q := Part.setEngine _ g _) hempty (gantryStation g) rfl

theorem gantryDisable_keeps (p : Part) (gantry : Nat) : Keeps p (gantryDisable p gantry).1 := by
  refine indexed_keeps fun g => checked_keeps ?_
  have hstopped : Keeps p (if (p.engine g).state.mayBurn then p.request (gantryStation g) (.arcStop .engine) else p) :=
    .ite (.request (.refl p) _ rfl) (.refl p)
  have hwithdrawn := hstopped.withdraw (isDispatch g)
  exact .ite hwithdrawn (hwithdrawn.trans (releaseAsk_keeps _ g))

theorem gantryHold_keeps (p : Part) (gantry : Nat) : Keeps p (gantryHold p gantry).1 :=
  indexed_keeps fun g => Keeps.ite (releaseAsk_keeps p g) (.refl p)

theorem gantryRelease_keeps (p : Part) (gantry : Nat) : Keeps p (gantryRelease p gantry).1 := by
  refine indexed_keeps fun g => ?_
  dsimp only
  split
  · exact .refl p
  · split <;> exact .refl p

theorem partDecision_keeps (p : Part) (gantry part decision : Nat) : Keeps p (partDecision p gantry part decision).1 := by
  refine indexed_keeps fun g => checked_keeps ?_
  dsimp only [accept]
  split
  · exact decideStatus_keeps (p.setMarks g _) ..
  · exact decideStatus_keeps (p.setMarks g _) ..
  · exact decideRetry_keeps (p.setMarks g _) ..

/-! ## The requests on beds, cranes and orders (chapters 1, 2 and 8) -/

theorem bedDeclare_keeps (p : Part) (bed : Nat) (plate : RawTag) (condition : Nat) : Keeps p (bedDeclare p bed plate condition).1 := by
  refine indexed_keeps fun b => ?_
  dsimp only
  split
  · exact checked_keeps (setContent_keeps ..)
  · exact .refl p

theorem bedClearRequest_keeps (p : Part) (bed : Nat) : Keeps p (bedClearRequest p bed).1 := by
  refine indexed_keeps fun b => ?_
  dsimp only
  split
  · exact .refl p
  · refine .trans ?_ (setContent_keeps ..)
    split <;> exact .refl p

theorem craneOrder_keeps (p : Part) (tag crane : Nat) (source destination : RawPlace) (load : RawTag) :
    Keeps p (craneOrder p tag crane source destination load).1 := by
  refine indexed_keeps fun c => ?_
  split
  · refine checked_keeps ?_
    split
    · next h => exact placeOrder_keeps h
    · exact .refl p
  · exact .refl p

theorem craneOrderCancel_keeps (p : Part) (order : Nat) : Keeps p (craneOrderCancel p order).1 := by
  refine indexed_keeps fun n => ?_
  split
  · exact .refl p
  · split <;> exact .refl p

/-! ## The requests of the Remnant Stock Unit (chapter 9) -/

theorem remnantEnter_keeps (p : Part) (grade thickness width length heatLength : Nat) (heatChars : List Byte) (location : RawPlace) :
    Keeps p (remnantEnter p grade thickness width length heatLength heatChars location).1 := by
  unfold remnantEnter
  split
  · exact checked_keeps (putRemnant_keeps (p.createRemnant _) ..)
  · exact .refl p

theorem remnantRemove_keeps (p : Part) (n : Nat) : Keeps p (remnantRemove p n).1 := by
  refine recorded_keeps fun r => checked_keeps ?_
  dsimp only
  split
  · exact (changeSlot_keeps ..).trans (remnantGone_keeps ..)
  · exact remnantGone_keeps p n

theorem remnantRelocate_keeps (p : Part) (n : Nat) (location : RawPlace) : Keeps p (remnantRelocate p n location).1 := by
  refine recorded_keeps fun r => ?_
  split
  · exact .refl p
  · exact checked_keeps (putRemnant_keeps ..)

theorem remnantUnreserve_keeps (p : Part) (n : Nat) : Keeps p (remnantUnreserve p n).1 :=
  recorded_keeps fun _ => checked_keeps (changeRemnant_keeps ..)

theorem store_keeps (p : Part) (tag n : Nat) : Keeps p (store p tag n).1 := by
  refine recorded_keeps fun r => ?_
  split
  · refine checked_keeps ?_
    split
    · split
      · next h => exact placeList_keeps h
      · exact .refl p
      · exact .refl p
    · exact .refl p
  · exact .refl p

theorem takeWinner_keeps (p : Part) (w : Fitting) (reservation : Nat) : Keeps p (p.takeWinner w reservation).1 := by
  unfold Part.takeWinner
  split
  · exact changeRemnant_keeps ..
  · split
    · exact .refl p
    · split
      · exact .refl p
      · next h => exact (placeList_keeps h).trans (changeRemnant_keeps ..)
  · exact .refl p

theorem remnantRequest_keeps (p : Part) (grade thickness w l rotate deep reservation : Nat) :
    Keeps p (remnantRequest p grade thickness w l rotate deep reservation).1 := by
  refine checked_keeps ?_
  split
  · exact .refl p
  · exact takeWinner_keeps ..

/-! ## The tables (R182, R183) -/

theorem loadBed_keeps (p : Part) (index loaded : Nat) (xLo xHi yLo yHi ox oy : Int) :
    Keeps p (loadBed p index loaded xLo xHi yLo yHi ox oy).1 := by
  refine indexed_keeps fun b => checked_keeps ?_
  dsimp only
  split
  · exact .refl p
  · exact .ite (.refl p) (.refl p)

theorem loadGantry_keeps (p : Part) (index loaded reach : Nat) (w : Rect) (period retryLimit autoRelease mode depth : Nat) :
    Keeps p (loadGantry p index loaded reach w period retryLimit autoRelease mode depth).1 :=
  indexed_keeps fun _ => checked_keeps (.refl p)

theorem loadCrane_keeps (p : Part) (index installed margin timeout rack : Nat) :
    Keeps p (loadCrane p index installed margin timeout rack).1 :=
  indexed_keeps fun c => checked_keeps (withdrawDuePoll_keeps (Part.setCrane (p.setStation (craneStation c) {}) c _) c)

theorem loadSlot_keeps (p : Part) (index loaded : Nat) (x y : Int) (maxWidth maxLength : Nat) :
    Keeps p (loadSlot p index loaded x y maxWidth maxLength).1 := indexed_keeps fun _ => checked_keeps (changeSlot_keeps ..)

theorem loadPass_keeps (p : Part) (index diagnostic parameter motion io : Nat) :
    Keeps p (loadPass p index diagnostic parameter motion io).1 := by
  refine indexed_keeps fun x => ?_
  split <;> exact .refl p

theorem loadBand_keeps (p : Part) (index loaded bound margin : Nat) : Keeps p (loadBand p index loaded bound margin).1 :=
  indexed_keeps fun _ => checked_keeps (.refl p)

theorem loadController_keeps (p : Part) (index window : Nat) (hallLength hallWidth : Int) (digPenalty digReserve minimumSize : Nat) :
    Keeps p (loadController p index window hallLength hallWidth digPenalty digReserve minimumSize).1 := checked_keeps (.refl p)

theorem readTable_keeps (p : Part) (range first count step : Nat) (header : Option (Nat × Nat)) (entry : Nat → Option Entry) :
    Keeps p (readTable p range first count step header entry).1 := by
  refine checked_keeps ?_
  split <;> exact .refl p

/-! ## Passthroughs that begin and end (R174, R180) -/

/-- The reply of an ended passthrough, when one is held (R174). -/
def passEnded (held : Option Nat) (code : Reason) (body : ReplyBody) : List Reply :=
  held.toList.map (fun tag => { kind := kPassthrough, tag := tag, code := code, body := body, kept := true })

theorem keptReplies_passEnded (held : Option Nat) (code : Reason) (body : ReplyBody) : keptReplies (passEnded held code body) ≤ 1 := by
  cases held <;> simp [keptReplies, passEnded]

theorem ordinaryReplies_passEnded (held : Option Nat) (code : Reason) (body : ReplyBody) :
    ordinaryReplies (passEnded held code body) = 0 := by
  cases held <;> simp [ordinaryReplies, passEnded]

theorem keptReplies_append (rs us : List Reply) : keptReplies (rs ++ us) = keptReplies rs + keptReplies us := by simp [keptReplies]

theorem ordinaryReplies_append (rs us : List Reply) : ordinaryReplies (rs ++ us) = ordinaryReplies rs + ordinaryReplies us := by
  simp [ordinaryReplies]

theorem ports_endPass (p : Part) (code : Reason) (body : ReplyBody) :
    ports (p.endPass code body) = { ports p with replies := p.ofp.replies ++ passEnded p.flp.passHeld code body } := by
  unfold Part.endPass
  split
  · next h => rw [h]; rfl
  · next h => simp [h, passEnded, ports]

/-- A passthrough that leaves the floor line may take the kept place: there is still one at most. -/
theorem kept_of_ended {a b : Ports} {held : Option Nat} {code : Reason} {body : ReplyBody}
    (hr : b.replies = a.replies ++ passEnded held code body) (hn : a.NoticesOk → b.NoticesOk)
    (hlt : passFrames b.pending + passInFlight b.inFlight < passFrames a.pending + passInFlight a.inFlight)
    (hheld : b.passHeld = a.passHeld) : Kept a b := by
  have hone := keptReplies_passEnded held code body
  refine ⟨?_, hn, fun ha => ha.mono ?_ hheld⟩
  · rw [hr, ordinaryReplies_append, ordinaryReplies_passEnded, Nat.add_zero]
  · unfold Ports.passes
    rw [hr, keptReplies_append]
    omega

theorem endPass_keeps {p q : Part} {rs : List FloorRequest} {t : Option Transaction}
    (hq : ports q = { ports p with pending := rs, inFlight := t })
    (hlt : passFrames rs + passInFlight t < passFrames p.flp.pending + passInFlight p.flp.inFlight) (code : Reason) (body : ReplyBody) :
    Keeps p (q.endPass code body) := by
  have hreplies : q.ofp.replies = p.ofp.replies := congrArg Ports.replies hq
  unfold Keeps
  rw [ports_endPass, hq, hreplies]
  exact kept_of_ended rfl id hlt rfl

/-- A frame that is let through is the only one under way: the place was free (R174). -/
theorem passRequest_keeps (p : Part) (tag destination kind : Nat) (payload : List Byte) :
    Keeps p (passRequest p tag destination kind payload).1 := by
  have hbegin (x : Station) (c : PassClass) (body : List Byte) (hfree : ¬ p.flp.passHeld.isSome = true) :
      Keeps p (({ p with flp := { p.flp with passHeld := some tag } } : Part).request x (.pass c body)) := by
    refine ⟨rfl, id, fun ⟨hle, hheld⟩ => ?_⟩
    have hone : passFrames [⟨x, .pass c body⟩] = 1 := rfl
    have hnone : (ports p).passes = 0 := by
      by_cases hunderway : (ports p).passes = 1
      · exact absurd (hheld hunderway) hfree
      · omega
    have hnext : (ports (({ p with flp := { p.flp with passHeld := some tag } } : Part).request x (.pass c body))).passes
        = (ports p).passes + 1 := by
      show passFrames (p.flp.pending ++ [⟨x, .pass c body⟩]) + passInFlight p.flp.inFlight + keptReplies p.ofp.replies = _
      rw [passFrames_append, hone]
      simp only [Ports.passes, ports]
      omega
    exact ⟨by omega, fun _ => rfl⟩
  unfold passRequest
  split
  · exact .refl p
  · split
    · exact .refl p
    · split
      · exact .refl p
      · exact .refl p
      · split
        · exact .refl p
        · next hfree =>
          split
          · exact .refl p
          · exact hbegin _ _ _ hfree

/-! ## Granting the line (R163, R167, R174) -/

/-- A granted frame leaves the pending ones. -/
theorem grant_passFrames {f f' : FloorPort} {n : Nat} {r : FloorRequest} (h : FloorLine.Grant f n r f') :
    passFrames f.pending = passFrames f'.pending + passFrames [r] := by
  obtain ⟨before, after, hl, hrest, _⟩ := h.order
  rw [hl, hrest, ← List.singleton_append, passFrames_append, passFrames_append, passFrames_append]
  omega

theorem passInFlight_some (r : FloorRequest) (w : Nat) : passInFlight (some ⟨r, w⟩) = passFrames [r] := by
  simp only [passInFlight, passFrames, Option.toList, List.filter_cons, List.filter_nil]
  split <;> rfl

theorem passFrames_pass {r : FloorRequest} {c : PassClass} {body : List Byte} (h : r.frame = .pass c body) : passFrames [r] = 1 := by
  simp [passFrames, h, FloorFrame.cls]

theorem grantPending_keeps {p : Part} {n : Nat} {r : FloorRequest} {f : FloorPort} (h : FloorLine.Grant p.flp n r f) :
    Keeps p (p.grantPending r f) := by
  have hcount := grant_passFrames h
  have hports : ports { p with flp := f } = { ports p with pending := f.pending } := by
    simp only [ports]
    rw [h.rest]
  have hsent : Keeps p { p with flp := f.send r } := by
    refine keeps_of_floor (rs := f.pending) (t := some ⟨r, f.answerWindow⟩) ?_ ?_
    · exact congrArg (fun a : Ports => { a with inFlight := some ⟨r, f.answerWindow⟩ }) hports
    · rw [passInFlight_some, hcount]
      omega
  unfold Part.grantPending
  dsimp only
  split
  · next hr =>
    refine .ite (endPass_keeps (rs := f.pending) (t := p.flp.inFlight) hports ?_ _ _) hsent
    rw [hcount, passFrames_pass hr]
    omega
  · exact hsent

/-- The rotation moves its turns and no frame (R169). -/
theorem rotation_ports {p : Part} {x : Station} {f : FloorPort} (h : p.rotation = some (x, f)) :
    ports { p with flp := f } = ports p := by
  unfold Part.rotation at h
  split at h <;> cases h <;> rfl

theorem floorGrant_keeps (p : Part) : Keeps p p.floorGrant := by
  unfold Part.floorGrant
  refine .ite (.refl p) ?_
  split
  · next hpick =>
    obtain ⟨n, hgrant, _⟩ := FloorLine.pick_grant hpick
    exact grantPending_keeps hgrant
  · split
    · next x f hturn =>
      refine keeps_of_floor (rs := p.flp.pending) (t := some ⟨⟨x, .poll false⟩, f.answerWindow⟩) ?_ (Nat.le_add_right ..)
      exact congrArg (fun a : Ports => { a with inFlight := some ⟨⟨x, .poll false⟩, f.answerWindow⟩ }) (rotation_ports hturn)
    · exact .refl p

/-! ## Misses and answers (R163 to R165, R170 to R172) -/

theorem dropMarks_keeps (p : Part) (x : Station) (rs : List FloorRequest) : Keeps p (p.dropMarks x rs) := by
  unfold Part.dropMarks
  split <;> exact .refl p

theorem loseStation_keeps (p : Part) (r : FloorRequest) (cause : MissCause) : Keeps p (p.loseStation r cause) := by
  have hlost : Keeps p ((p.setStation r.station ⟨3, true, some cause⟩).withdraw (lostWith r.station)) := .withdraw (.refl p) _
  unfold Part.loseStation
  exact hlost.trans (dropMarks_keeps ..)

/-- A kept frame that is no passthrough adds none to the pending ones (R164). -/
theorem keepFrame_keeps {r : FloorRequest} (h : (r.frame.cls == 6) = false) (p : Part) : Keeps p (p.keepFrame r) := by
  have hkept : Keeps p { p with flp := { p.flp with pending := r :: p.flp.pending } } := by
    refine keeps_of_pending (rs := r :: p.flp.pending) rfl (Nat.le_of_eq ?_)
    rw [← List.singleton_append, passFrames_append, passFrames_single h, Nat.zero_add]
  unfold Part.keepFrame
  dsimp only
  split
  · exact .refl p
  · exact .ite hkept (.refl p)
  · exact .ite (.request (.refl p) _ rfl) hkept
  · exact hkept

theorem countMiss_keeps {r : FloorRequest} (h : (r.frame.cls == 6) = false) (p : Part) (cause : MissCause) :
    Keeps p (p.countMiss r cause) := by
  unfold Part.countMiss
  exact .ite (dropMarks_keeps (p.setStation r.station _) ..) (.ite (keepFrame_keeps h (p.setStation r.station _)) (loseStation_keeps ..))

/-- A transaction that ends takes its frame off the line. -/
theorem ended_keeps (p : Part) (silence : Bool) :
    Keeps p { p with flp := { p.flp with inFlight := none, silence := silence } } :=
  keeps_of_floor (rs := p.flp.pending) (t := none) rfl (Nat.le_add_right ..)

/-- A passthrough in flight that ends leaves the line for the kept place. -/
theorem endPass_inFlight_keeps {p : Part} {t : Transaction} {c : PassClass} {body : List Byte} (hf : p.flp.inFlight = some t)
    (hr : t.request.frame = .pass c body) (silence : Bool) (code : Reason) (reply : ReplyBody) :
    Keeps p (({ p with flp := { p.flp with inFlight := none, silence := silence } } : Part).endPass code reply) := by
  have hone : passInFlight p.flp.inFlight = 1 := by
    rw [hf]
    exact (passInFlight_some t.request t.window).trans (passFrames_pass hr)
  refine endPass_keeps (rs := p.flp.pending) (t := none) rfl ?_ code reply
  rw [hone]
  exact Nat.lt_succ_self _

theorem cls_of_not_pass {f : FloorFrame} (h : ∀ c body, f ≠ .pass c body) : (f.cls == 6) = false := by
  cases f with
  | pass c body => exact absurd rfl (h c body)
  | _ => rfl

theorem miss_keeps {p : Part} {t : Transaction} (hf : p.flp.inFlight = some t) (cause : MissCause) : Keeps p (p.miss t cause) := by
  have hended := ended_keeps p true
  unfold Part.miss
  dsimp only
  split
  · next hr => exact endPass_inFlight_keeps hf hr true .noAnswer .none
  · next hr => exact .ite hended (hended.trans (countMiss_keeps (cls_of_not_pass hr) _ cause))

theorem windowExpiry_keeps (p : Part) (begun : Bool) : Keeps p (p.windowExpiry begun) := by
  unfold Part.windowExpiry
  split
  · next hf => exact miss_keeps hf _
  · exact .refl p

theorem foundStation_keeps (p : Part) (x : Station) : Keeps p (p.foundStation x) := by
  unfold Part.foundStation
  exact .ite (.notify (.refl p) _) (.refl p)

theorem deliverPosition_keeps (p : Part) (c : Crane) (x y : Int) (hookLow loaded : Bool) (event : Option (OrderEventKind × Nat)) :
    Keeps p (p.deliverPosition c x y hookLow loaded event) := by
  unfold Part.deliverPosition
  dsimp only
  split <;> exact takePosition_keeps ..

theorem deliverAck_keeps (p : Part) (x : Station) (f : FloorFrame) : Keeps p (p.deliverAck x f) := by
  unfold Part.deliverAck
  split
  · exact orderAck_keeps ..
  · exact .refl p
  · exact gantryAck_keeps ..
  · exact .refl p

theorem deliverRefuse_keeps (p : Part) (x : Station) (f : FloorFrame) (code : Nat) : Keeps p (p.deliverRefuse x f code) := by
  unfold Part.deliverRefuse
  split
  · exact orderRefuse_keeps ..
  · exact .refl p
  · exact gantryRefuse_keeps ..
  · exact .refl p

theorem deliver_keeps (p : Part) (x : Station) (f : FloorFrame) (a : FloorAnswer) : Keeps p (p.deliver x f a) := by
  unfold Part.deliver
  split
  · split
    · exact deliverPosition_keeps ..
    · exact .refl p
  · split <;> exact .refl p
  · exact deliverAck_keeps ..
  · exact deliverRefuse_keeps ..
  · exact .refl p

theorem answered_keeps (p : Part) (frame : AnswerFrame) (content : FloorAnswer) : Keeps p (p.answered frame content) := by
  unfold Part.answered
  split
  · exact .refl p
  · next t hf =>
    refine .ite (miss_keeps hf _) ?_
    split
    · next hr => exact .ite (endPass_inFlight_keeps hf hr p.flp.silence _ _) (miss_keeps hf _)
    · have hended := ended_keeps p p.flp.silence
      exact .ite ((hended.trans (foundStation_keeps ..)).trans (deliver_keeps ..)) (miss_keeps hf _)

theorem badAnswer_keeps (p : Part) (bytes : List Byte) : Keeps p (p.badAnswer bytes) := by
  unfold Part.badAnswer
  split
  · exact answered_keeps ..
  · next hf => exact miss_keeps hf _
  · exact .refl p

/-! ## The office line and the time base (R24, R27, R176) -/

theorem receiveByte_keeps (p : Part) (b : Byte) : Keeps p (p.receiveByte b) := by
  unfold Part.receiveByte Part.goodFrame
  dsimp only
  split
  · split <;> exact .refl p
  · exact .refl p

theorem receive_keeps (p : Part) (bs : List Byte) : Keeps p (p.receive bs) := foldl_keeps receiveByte_keeps bs p

theorem byteGap_keeps (p : Part) : Keeps p p.byteGap := by
  unfold Part.byteGap
  split <;> exact .refl p

theorem raiseDuePoll_keeps (p : Part) (c : Crane) : Keeps p (p.raiseDuePoll c) := by
  unfold Part.raiseDuePoll
  exact .ite (.request (.refl p) _ rfl) (.refl p)

theorem positionTimeout_keeps (p : Part) (c : Crane) : Keeps p (p.positionTimeout c) := .ite (loseCrane_keeps ..) (.refl p)

/-! ## The warm reset (R175, R186) -/

/-- The ports behind their own part of a warm reset: the line cleared, no notice left, the sequence at 0 (R175, R186). -/
def Ports.reset (a : Ports) : Ports := { a with notices := [], sequence := 0, pending := [], inFlight := none }

/-- A passthrough that is open is pending or in flight (R175). -/
theorem passOpen_iff (f : FloorPort) : f.passOpen = true ↔ 0 < passFrames f.pending + passInFlight f.inFlight := by
  have hpending : f.hasClass 6 = true ↔ 0 < passFrames f.pending := by
    simp [FloorPort.hasClass, passFrames, List.length_pos_iff, List.filter_eq_nil_iff]
  have hflight : f.inFlight.any (fun t => t.request.frame.cls == 6) = true ↔ 0 < passInFlight f.inFlight := by
    cases f.inFlight <;> simp [passInFlight, List.length_pos_iff, List.filter_eq_nil_iff]
  rw [FloorPort.passOpen, Bool.or_eq_true, hpending, hflight]
  omega

/-- The passthrough that a warm reset ends takes the kept place, and the reset clears the rest (R175). -/
theorem endPassAtReset_kept (p : Part) : Kept (ports p) (ports p.endPassAtReset).reset := by
  have hnotices (a : Ports) : (ports p).NoticesOk → a.reset.NoticesOk := fun _ => ⟨Nat.zero_le _, Nat.zero_lt_succ 65535⟩
  unfold Part.endPassAtReset
  split
  · next hopen =>
    rw [ports_endPass]
    exact kept_of_ended rfl (hnotices _) ((passOpen_iff p.flp).1 hopen) rfl
  · exact ⟨rfl, hnotices _, fun hp => hp.mono (Nat.add_le_add_right (Nat.zero_le _) _) rfl⟩

theorem cranesWarmReset_keeps (p : Part) : Keeps p p.cranesWarmReset := by
  refine foldl_keeps (fun p c => ?_) _ _
  exact .ite (withdrawDuePoll_keeps p c) (withdrawDuePoll_keeps p c)

theorem resetFrames_keeps (p : Part) (stops : List Gantry) (cancels : List (Crane × OrderNo)) :
    Keeps p (p.resetFrames stops cancels) := by
  unfold Part.resetFrames
  exact (foldl_keeps (fun p _ => .request (.refl p) _ rfl) stops p).trans (foldl_keeps (fun p _ => .request (.refl p) _ rfl) cancels _)

theorem warmReset_keeps (p : Part) : Keeps p p.warmReset := by
  have hblocks : Keeps p (((p.bedsWarmReset p.cutBeds).cranesWarmReset).marksWarmReset) :=
    cranesWarmReset_keeps (p.bedsWarmReset p.cutBeds)
  unfold Part.warmReset
  dsimp only
  generalize ((p.bedsWarmReset p.cutBeds).cranesWarmReset).marksWarmReset = q at hblocks ⊢
  refine Keeps.trans ?_ (resetFrames_keeps _ _ _)
  exact hblocks.trans (endPassAtReset_kept q)

end Sys2Proof.Machine.OfficeBounds
end

section
/-! PROOFS. Every command keeps the bounds of the Office Port, the rest between two steps and the one passthrough (R174, R180, R181). -/

namespace Sys2Proof.Machine.OfficeBounds

/-! ## The transmitter (R180) -/

/-- What a free transmitter may do: begin the oldest reply, begin the oldest notice, or stay free with nothing to send. -/
theorem transmit_cases (p : Part) :
    (∃ r rest, p.ofp.replies = r :: rest ∧ p.transmit = { p with
        ofp := { p.ofp with sending := some (.reply r), replies := rest },
        flp := { p.flp with passHeld := if r.kept then none else p.flp.passHeld } })
    ∨ (∃ seq n rest, p.ofp.notices = (seq, n) :: rest
        ∧ p.transmit = { p with ofp := { p.ofp with sending := some (.notice seq n), notices := rest } })
    ∨ (p.transmit = p ∧ (p.ofp.sending = none → p.ofp.replies = [] ∧ p.ofp.notices = [])) := by
  cases hs : p.ofp.sending with
  | some f => exact .inr (.inr ⟨Part.transmit_busy hs, by simp⟩)
  | none =>
      cases hr : p.ofp.replies with
      | cons r rest => exact .inl ⟨r, rest, rfl, FloorLine.transmit_reply hs hr⟩
      | nil =>
          cases hn : p.ofp.notices with
          | cons e rest => exact .inr (.inl ⟨e.1, e.2, rest, rfl, FloorLine.transmit_notice hs hr hn⟩)
          | nil => exact .inr (.inr ⟨Part.transmit_rest fun _ => ⟨hr, hn⟩, fun _ => ⟨rfl, rfl⟩⟩)

/-- What the transmitter begins leaves its place. -/
theorem transmit_officeOk {p : Part} (h : OfficeOk p) : OfficeOk p.transmit := by
  obtain ⟨hnotices, hreplies, hseq⟩ := h
  obtain ⟨r, rest, hr, ht⟩ | ⟨seq, n, rest, hn, ht⟩ | ⟨ht, _⟩ := transmit_cases p
  · rw [ht]
    rw [hr] at hreplies
    exact ⟨hnotices, Nat.le_trans ((List.sublist_cons_self r rest).filter _).length_le hreplies, hseq⟩
  · rw [ht]
    rw [hn] at hnotices
    exact ⟨Nat.le_trans (Nat.le_succ _) hnotices, hreplies, hseq⟩
  · rw [ht]
    exact ⟨hnotices, hreplies, hseq⟩

/-- Behind the transmitter nothing waits for it. -/
theorem transmit_restOk {p : Part} (ha : p.agenda = []) : RestOk p.transmit := by
  obtain ⟨r, rest, _, ht⟩ | ⟨seq, n, rest, _, ht⟩ | ⟨ht, hrest⟩ := transmit_cases p
  · rw [ht]; exact ⟨ha, fun h => by cases h⟩
  · rw [ht]; exact ⟨ha, fun h => by cases h⟩
  · rw [ht]; exact ⟨ha, hrest⟩

/-- The passthrough whose kept reply is begun was the only one, and is held no more (R174). -/
theorem transmit_passOk {p : Part} (h : PassOk p) : PassOk p.transmit := by
  obtain ⟨r, rest, hr, ht⟩ | ⟨seq, n, rest, _, ht⟩ | ⟨ht, _⟩ := transmit_cases p
  · obtain ⟨hone, hheld⟩ := (passOk_iff p).1 h
    have hbefore : (ports p).passes = passFrames p.flp.pending + passInFlight p.flp.inFlight + keptReplies (r :: rest) := by
      rw [← hr]; rfl
    have hafter : (ports p.transmit).passes = passFrames p.flp.pending + passInFlight p.flp.inFlight + keptReplies rest := by
      rw [ht]; rfl
    refine (passOk_iff _).2 ?_
    cases hk : r.kept with
    | true =>
        have hcount : keptReplies (r :: rest) = keptReplies rest + 1 := by simp [keptReplies, hk]
        exact ⟨by omega, fun h1 => by omega⟩
    | false =>
        have hcount : keptReplies (r :: rest) = keptReplies rest := by simp [keptReplies, hk]
        have hsame : (ports p.transmit).passHeld = p.flp.passHeld := by rw [ht]; simp [ports, hk]
        exact ⟨by omega, fun h1 => by rw [hsame]; exact hheld (by omega)⟩
  · rw [ht]; exact h
  · rw [ht]; exact h

/-! ## The two shapes of a command -/

/-- From one step to the next: the Office Port within its bounds and at rest, and one passthrough at most. -/
structure Bounded (p q : Part) : Prop where
  office : OfficeOk p → RestOk p → OfficeOk q ∧ RestOk q
  pass : PassOk p → PassOk q

theorem Bounded.refl (p : Part) : Bounded p p := ⟨.intro, id⟩

theorem Keeps.officeOk {p q : Part} (h : Keeps p q) (hp : OfficeOk p) : OfficeOk q := by
  obtain ⟨hnotices, hreplies⟩ := (officeOk_iff p).1 hp
  exact (officeOk_iff q).2 ⟨h.notices hnotices, Nat.le_trans (Nat.le_of_eq h.ordinary) hreplies⟩

/-- A command that ends with the transmitter, nothing handed on any more. -/
theorem Bounded.of_transmit {p q : Part} (hoffice : OfficeOk p → OfficeOk q) (hpass : PassOk p → PassOk q) (ha : q.agenda = []) :
    Bounded p q.transmit :=
  ⟨fun ho _ => ⟨transmit_officeOk (hoffice ho), transmit_restOk ha⟩, fun hp => transmit_passOk (hpass hp)⟩

/-- An event that keeps the bounds of the ports. -/
theorem happens_bounded {f : Part → Part} (h : ∀ p, Keeps p (f p)) {s t : State} (ht : s.happens f = .next t) :
    Bounded s.part t.part := by
  obtain rfl := Host.Outcome.next.inj ht
  have hk := (h s.part).trans (settled_keeps _)
  show Bounded s.part (s.part.happens f)
  unfold Part.happens
  split
  · exact .refl _
  · exact .of_transmit hk.officeOk hk.pass rfl

/-- An ordinary reply enters a place that was free when its request was taken (R177). -/
theorem reply_officeOk {p q : Part} (h : Keeps p q) (hplace : p.ofp.hasReplyPlace = true) (kind tag : Nat) (code : Reason)
    (body : ReplyBody) (hp : OfficeOk p) : OfficeOk (q.reply kind tag code body) := by
  have hroom : ordinaryReplies p.ofp.replies < replyCapacity := of_decide_eq_true hplace
  have hsame : ordinaryReplies q.ofp.replies = ordinaryReplies p.ofp.replies := h.ordinary
  obtain ⟨hnotices, _⟩ := (officeOk_iff p).1 hp
  refine (officeOk_iff _).2 ⟨h.notices hnotices, ?_⟩
  show ordinaryReplies (q.ofp.replies ++ [{ kind := kind, tag := tag, code := code, body := body }]) ≤ replyCapacity
  rw [ordinaryReplies_append, hsame]
  exact hroom

/-- An ordinary reply is no passthrough's. -/
theorem reply_passOk {p : Part} (h : PassOk p) (kind tag : Nat) (code : Reason) (body : ReplyBody) :
    PassOk (p.reply kind tag code body) := by
  refine (passOk_iff _).2 (((passOk_iff p).1 h).mono (b := ports (p.reply kind tag code body)) (Nat.add_le_add_left ?_ _) rfl)
  show keptReplies (p.ofp.replies ++ [{ kind := kind, tag := tag, code := code, body := body }]) ≤ keptReplies p.ofp.replies
  rw [keptReplies_append]
  exact Nat.le_refl _

/-- A request that is dropped or waits changes nothing that is bounded; one that is taken finds a place for its reply. -/
theorem request?_bounded {c : Instr} {body : Part → Part} {p : Part}
    (h : p.ofp.hasReplyPlace = true → Bounded p (body p.taking).transmit) : Bounded p (p.request? c body) := by
  unfold Part.request?
  split
  · exact .refl p
  · exact ⟨.intro, id⟩
  · next hc =>
    refine h ?_
    unfold OfficePort.admission at hc
    split at hc
    · cases hc
    · split at hc
      · next hplace => exact hplace
      · cases hc

/-- A request whose owner keeps the bounds of the ports. -/
theorem serve_bounded {c : Instr} {kind tag : Nat} {owner : Part → Answered} (h : ∀ p, Keeps p (owner p).1) {s t : State}
    (ht : s.serve c kind tag owner = .next t) : Bounded s.part t.part := by
  obtain rfl := Host.Outcome.next.inj ht
  show Bounded s.part (s.part.serve c kind tag owner)
  unfold Part.serve
  refine request?_bounded fun hplace => ?_
  have hk : Keeps s.part (owner s.part.taking).1.settled := Keeps.trans (h s.part.taking) (settled_keeps _)
  exact .of_transmit (reply_officeOk hk hplace _ _ _ _) (fun hp => reply_passOk (hk.pass hp) _ _ _ _) rfl

/-- A passthrough that is refused is answered in an ordinary place; one that is let through is not answered yet (R174). -/
theorem execPassthrough_bounded {tag destination kind : Nat} {payload : List Byte} {s t : State}
    (ht : execPassthrough tag destination kind payload s = .next t) : Bounded s.part t.part := by
  obtain rfl := Host.Outcome.next.inj ht
  dsimp only
  refine request?_bounded fun hplace => ?_
  have hp : Keeps s.part (passRequest s.part.taking tag destination kind payload).1.settled :=
    Keeps.trans (passRequest_keeps s.part.taking ..) (settled_keeps _)
  split
  · next h =>
    rw [h] at hp
    exact .of_transmit (reply_officeOk hp hplace _ _ _ _) (fun hpass => reply_passOk (hp.pass hpass) _ _ _ _) rfl
  · next h =>
    rw [h] at hp
    exact .of_transmit hp.officeOk hp.pass rfl

/-! ## The commands -/

/-- A cold reset leaves every queue empty (R187). -/
theorem coldReset_bounded (p : Part) (byInput : Bool) : Bounded p (coldReset byInput) :=
  ⟨fun _ _ => ⟨⟨Nat.zero_le _, Nat.zero_le _, Nat.zero_lt_succ 65535⟩, rfl, fun _ => ⟨rfl, rfl⟩⟩,
    fun _ => ⟨Nat.zero_le _, fun h => absurd h Nat.zero_ne_one⟩⟩

theorem exec_bounded (i : Instr) {s t : State} : exec i s = .next t → Bounded s.part t.part := by
  cases i with
  | jobOpen tag pages => exact serve_bounded (jobOpen_keeps · _)
  | jobWrite tag job offset records => exact serve_bounded (jobWrite_keeps · _ _ _)
  | jobRead tag job offset count => exact serve_bounded (jobRead_keeps · _ _ _)
  | jobEnqueue tag job gantry => exact serve_bounded (jobEnqueue_keeps · _ _)
  | jobRelease tag job => exact serve_bounded (jobRelease_keeps · _)
  | completionAck tag => exact serve_bounded completionAck_keeps
  | completionAckAndRelease tag => exact serve_bounded completionAckAndRelease_keeps
  | gantryEnable tag gantry => exact serve_bounded (gantryEnable_keeps · _)
  | gantryDisable tag gantry => exact serve_bounded (gantryDisable_keeps · _)
  | gantryHold tag gantry => exact serve_bounded (gantryHold_keeps · _)
  | gantryRelease tag gantry => exact serve_bounded (gantryRelease_keeps · _)
  | partDecision tag gantry part decision => exact serve_bounded (partDecision_keeps · _ _ _)
  | bedDeclare tag bed plate condition => exact serve_bounded (bedDeclare_keeps · _ _ _)
  | bedClear tag bed => exact serve_bounded (bedClearRequest_keeps · _)
  | craneOrder tag crane source destination load => exact serve_bounded (craneOrder_keeps · _ _ _ _ _)
  | craneOrderCancel tag order => exact serve_bounded (craneOrderCancel_keeps · _)
  | remnantEnter tag grade thickness width length heatLength heatChars location =>
      exact serve_bounded (remnantEnter_keeps · _ _ _ _ _ _ _)
  | remnantRemove tag number => exact serve_bounded (remnantRemove_keeps · _)
  | remnantRelocate tag number location => exact serve_bounded (remnantRelocate_keeps · _ _)
  | remnantUnreserve tag number => exact serve_bounded (remnantUnreserve_keeps · _)
  | store tag number => exact serve_bounded (store_keeps · _ _)
  | remnantRequest tag grade thickness w l rotate deep reservation => exact serve_bounded (remnantRequest_keeps · _ _ _ _ _ _ _)
  | loadEntryBed tag index loaded xLo xHi yLo yHi ox oy => exact serve_bounded (loadBed_keeps · _ _ _ _ _ _ _ _)
  | loadEntryGantry tag index loaded reach xMin xMax yMin yMax period retryLimit autoRelease mode depth =>
      exact serve_bounded (loadGantry_keeps · _ _ _ _ _ _ _ _ _)
  | loadEntryCrane tag index installed margin timeout rack => exact serve_bounded (loadCrane_keeps · _ _ _ _ _)
  | loadEntrySlot tag index loaded x y maxWidth maxLength => exact serve_bounded (loadSlot_keeps · _ _ _ _ _ _)
  | loadEntryPass tag index diagnostic parameter motion io => exact serve_bounded (loadPass_keeps · _ _ _ _ _)
  | loadEntryBand tag index loaded bound margin => exact serve_bounded (loadBand_keeps · _ _ _ _)
  | loadEntryController tag index window hallLength hallWidth digPenalty digReserve minimumSize =>
      exact serve_bounded (loadController_keeps · _ _ _ _ _ _ _)
  | readEntryBed tag first count step => exact serve_bounded fun p => readTable_keeps p ..
  | readEntryGantry tag first count step => exact serve_bounded fun p => readTable_keeps p ..
  | readEntryCrane tag first count step => exact serve_bounded fun p => readTable_keeps p ..
  | readEntrySlot tag first count step => exact serve_bounded fun p => readTable_keeps p ..
  | readEntryPass tag first count step => exact serve_bounded fun p => readTable_keeps p ..
  | readEntryBand tag first count step => exact serve_bounded fun p => readTable_keeps p ..
  | readEntryController tag first count step => exact serve_bounded fun p => readTable_keeps p ..
  | readEntryPresence tag first count step => exact serve_bounded fun p => readTable_keeps p ..
  | readEntryRegistration tag first count step => exact serve_bounded fun p => readTable_keeps p ..
  | readEntryJob tag first count step => exact serve_bounded fun p => readTable_keeps p ..
  | readEntryMark tag first count step => exact serve_bounded fun p => readTable_keeps p ..
  | readEntryOrder tag first count step => exact serve_bounded fun p => readTable_keeps p ..
  | readEntryRemnant tag first count step => exact serve_bounded fun p => readTable_keeps p ..
  | readEntryStation tag first count step => exact serve_bounded fun p => readTable_keeps p ..
  | readStatus tag => exact serve_bounded Keeps.refl
  | clearFlags tag => exact serve_bounded fun p => Keeps.refl p
  | controllerReset tag => exact serve_bounded warmReset_keeps
  | passthrough tag destination kind payload => exact execPassthrough_bounded
  | unknownRequest tag kind fault => exact serve_bounded Keeps.refl
  | officeFrameReceived bytes => exact happens_bounded (receive_keeps · bytes)
  | officeByteGap before next =>
      exact happens_bounded fun p => ((receive_keeps p before).trans (byteGap_keeps _)).trans (receiveByte_keeps _ next)
  | officeTransmitDone => exact happens_bounded (f := Part.transmitDone) Keeps.refl
  | coldReset byInput => exact fun ht => Host.Outcome.next.inj ht ▸ coldReset_bounded s.part byInput
  | floorGrant => exact happens_bounded floorGrant_keeps
  | missSilenceEnd => exact happens_bounded (f := Part.silenceEnd) Keeps.refl
  | answerWindowExpiry begun => exact happens_bounded (windowExpiry_keeps · begun)
  | badAnswer bytes => exact happens_bounded (badAnswer_keeps · bytes)
  | cranePollAnswer address x y hookLow loaded event => exact happens_bounded (answered_keeps · _ _)
  | gantryPollAnswer address events => exact happens_bounded (answered_keeps · _ _)
  | answerAck address => exact happens_bounded (answered_keeps · _ _)
  | answerRefuse address code => exact happens_bounded (answered_keeps · _ _)
  | passthroughAnswer address kind payload => exact happens_bounded (answered_keeps · _ _)
  | duePollRaise crane => exact happens_bounded (raiseDuePoll_keeps · crane)
  | positionTimeout crane => exact happens_bounded (positionTimeout_keeps · crane)
  | reportAgeTick => exact happens_bounded (f := Part.tick) Keeps.refl
  | officeLengthDrop bytes => exact happens_bounded (receive_keeps · bytes)
  | resetInputRelease =>
      intro ht
      obtain rfl := Host.Outcome.next.inj ht
      show Bounded s.part s.part.releaseReset
      unfold Part.releaseReset
      split
      · exact coldReset_bounded s.part false
      · exact .refl _

/-- Settles O58: each step runs one command, or idles (log 1). -/
theorem theOfficePortStaysInItsBounds : Obligations.TheOfficePortStaysInItsBounds := by
  intro s t hstep
  have hb : Bounded s.part t.part := by
    unfold step at hstep
    split at hstep
    · obtain rfl := Host.Outcome.next.inj hstep
      exact .refl _
    · next c rest _ => exact exec_bounded c (s := { s with pending := rest }) hstep
  exact ⟨hb.office, hb.pass⟩

end Sys2Proof.Machine.OfficeBounds
end

section
/-! PROOFS. The office line (R176, R191): what bytes spell, what the receive assembler makes of a run of bytes, and what a good frame, a
byte gap and a length out of range leave. -/

namespace Sys2Proof.Machine.OfficeLine

/-! ## Bytes and fields (R189) -/

theorem beNat_append (bs : List Byte) (b : Byte) : beNat (bs ++ [b]) = beNat bs * 256 + b.toNat := by simp [beNat]

theorem length_toBytes (size n : Nat) : (toBytes size n).length = size := by
  induction size with
  | zero => rfl
  | succ size ih => simp [toBytes, ih]

/-- The last byte spells the remainder, the bytes before it the quotient. -/
theorem toBytes_succ (size n : Nat) : toBytes (size + 1) n = toBytes size (n / 256) ++ [BitVec.ofNat 8 n] := by
  induction size generalizing n with
  | zero => simp [toBytes]
  | succ size ih =>
      rw [toBytes, ih, toBytes, List.cons_append, Nat.div_div_eq_div_mul, Nat.pow_succ']

/-- A number that fits its field is read back (R189). -/
theorem beNat_toBytes {size n : Nat} (h : n < 256 ^ size) : beNat (toBytes size n) = n := by
  induction size generalizing n with
  | zero => simp [toBytes, beNat]; omega
  | succ size ih =>
      rw [toBytes_succ, beNat_append, ih (Nat.div_lt_of_lt_mul (by rwa [← Nat.pow_succ'])), BitVec.toNat_ofNat]
      omega

/-- A field behind `pre` bytes, with others behind it. -/
theorem natAt_field {pre rest : List Byte} {offset size n : Nat} (hpre : pre.length = offset) (hn : n < 256 ^ size) :
    natAt (pre ++ (toBytes size n ++ rest)) offset size = n := by
  unfold natAt slice
  rw [← hpre, List.drop_left, List.take_left' (length_toBytes size n), beNat_toBytes hn]

/-- The first byte as a field. -/
theorem natAt_head (b : Byte) (bs : List Byte) : natAt (b :: bs) 0 1 = b.toNat := by simp [natAt, slice, beNat]

/-! ## The frame its bytes spell (R176, R191) -/

/-- The bytes of a frame from the length to the end of the payload. -/
def officeBody (f : OfficeFrame) : List Byte :=
  toBytes 1 (4 + f.payload.length) ++ toBytes 1 f.kind ++ toBytes 2 f.tag ++ toBytes 1 f.destination ++ f.payload

theorem officeBytes_eq (f : OfficeFrame) : officeBytes f = officeStart :: (officeBody f ++ crcBytes (officeBody f)) := rfl

/-- The fields of a frame fit, and its payload has at most 240 bytes (12.1). -/
structure InRange (f : OfficeFrame) : Prop where
  kind : f.kind < 256
  tag : f.tag < 65536
  destination : f.destination < 256
  payload : f.payload.length ≤ 240

theorem length_officeBody (f : OfficeFrame) : (officeBody f).length = f.payload.length + 5 := by
  simp only [officeBody, List.length_append, length_toBytes]
  omega

theorem length_crcBytes (bs : List Byte) : (crcBytes bs).length = 2 := length_toBytes ..

theorem officeBody_fields {f : OfficeFrame} (h : InRange f) :
    natAt (officeBody f) 1 1 = f.kind ∧ natAt (officeBody f) 2 2 = f.tag ∧ natAt (officeBody f) 4 1 = f.destination
      ∧ (officeBody f).drop 5 = f.payload := by
  simp only [officeBody, List.append_assoc]
  refine ⟨natAt_field (length_toBytes ..) h.kind, ?_, ?_, ?_⟩
  · rw [← List.append_assoc]
    exact natAt_field (by simp [length_toBytes]) h.tag
  · rw [← List.append_assoc, ← List.append_assoc]
    exact natAt_field (by simp [length_toBytes]) h.destination
  · rw [← List.append_assoc, ← List.append_assoc, ← List.append_assoc]
    exact List.drop_left' (by simp [length_toBytes])

/-- A frame with its CRC is good, and is the frame it was made of. -/
theorem judgeOffice_officeBody {f : OfficeFrame} (h : InRange f) :
    judgeOffice (officeBody f ++ crcBytes (officeBody f)) = .frame f := by
  obtain ⟨hkind, htag, hdestination, hpayload⟩ := officeBody_fields h
  have hlen : (officeBody f ++ crcBytes (officeBody f)).length - 2 = (officeBody f).length := by
    rw [List.length_append, length_crcBytes, Nat.add_sub_cancel]
  unfold judgeOffice
  rw [hlen, List.take_left, List.drop_left]
  simp only [if_true, hkind, htag, hdestination, hpayload]

/-! ## The receive assembler (R176) -/

/-- The part with its assembler in another state. -/
def assembling (p : Part) (a : Assembler) : Part := { p with ofp := { p.ofp with assembler := a } }

theorem assembling_self {p : Part} {a : Assembler} (h : p.ofp.assembler = a) : assembling p a = p := by subst h; rfl

theorem receive_cons (p : Part) (b : Byte) (bs : List Byte) : p.receive (b :: bs) = (p.receiveByte b).receive bs := rfl

/-- The part when the assembler has answered a byte: its new state, and a good frame taken to the waiting place. -/
def received (p : Part) : Assembler × Assembled → Part
  | (a, .frame f) => (assembling p a).goodFrame f
  | (a, _) => assembling p a

theorem receiveByte_eq (p : Part) (a : Assembler) (b : Byte) : (assembling p a).receiveByte b = received p (feed a b) := by
  show _ = received p ((feed a b).1, (feed a b).2)
  unfold Part.receiveByte received
  dsimp only [assembling]
  cases (feed a b).2 <;> rfl

/-- A hunting assembler waits for the start byte. -/
theorem receiveByte_hunting (p : Part) (b : Byte) :
    (assembling p .hunting).receiveByte b = assembling p (if b = officeStart then .collecting [] else .hunting) := rfl

/-- A byte of a frame in progress, by the length the frame names. -/
theorem feed_collecting (bs : List Byte) (b : Byte) {len : Nat} (hlen : natAt (bs ++ [b]) 0 1 = len) :
    feed (.collecting bs) b
      = if len < 4 ∨ 244 < len then (.hunting, .dropped)
        else if bs.length + 1 = len + 3 then (.hunting, judgeOffice (bs ++ [b]))
        else (.collecting (bs ++ [b]), .nothing) := by
  simp only [feed, hlen, List.length_append, List.length_singleton]

/-- The bytes that are left of a frame whose length is in range: it is judged with the last of them. -/
theorem receive_left (p : Part) {b : Byte} (hlo : 4 ≤ b.toNat) (hhi : b.toNat ≤ 244) {bs left : List Byte} (hleft : left ≠ [])
    (hlen : bs.length + left.length = b.toNat + 2) :
    (assembling p (.collecting (b :: bs))).receive left = received p (.hunting, judgeOffice (b :: bs ++ left)) := by
  induction left generalizing bs with
  | nil => exact absurd rfl hleft
  | cons c left ih =>
      rw [receive_cons, receiveByte_eq, feed_collecting (b :: bs) c (natAt_head ..), if_neg (by omega)]
      rw [List.length_cons] at hlen ⊢
      by_cases hlast : left = []
      · subst hlast
        rw [if_pos (by simp at hlen; omega)]
        rfl
      · have hmore : 0 < left.length := List.length_pos_iff.2 hlast
        rw [if_neg (by omega), List.cons_append]
        exact (ih (bs := bs ++ [c]) hlast (by simp; omega)).trans (by simp)

/-- A frame whose length is in range, from its length byte on. -/
theorem receive_frame (p : Part) {b : Byte} {bs : List Byte} (hlo : 4 ≤ b.toNat) (hhi : b.toNat ≤ 244)
    (hlen : bs.length = b.toNat + 2) :
    (assembling p (.collecting [])).receive (b :: bs) = received p (.hunting, judgeOffice (b :: bs)) := by
  rw [receive_cons, receiveByte_eq, feed_collecting [] b (natAt_head ..), if_neg (by omega), if_neg (by simp)]
  exact receive_left p hlo hhi (List.ne_nil_of_length_pos (by omega)) (by simpa using hlen)

/-- The bytes of a frame, arriving while the assembler hunts. -/
theorem receive_officeBytes {p : Part} {f : OfficeFrame} (hp : p.ofp.assembler = .hunting) (hf : InRange f) :
    p.receive (officeBytes f) = p.goodFrame f := by
  have hlen : (BitVec.ofNat 8 (4 + f.payload.length)).toNat = 4 + f.payload.length := by
    have := hf.payload
    rw [BitVec.toNat_ofNat]
    omega
  have hbytes : officeBody f ++ crcBytes (officeBody f)
      = BitVec.ofNat 8 (4 + f.payload.length) :: ((officeBody f ++ crcBytes (officeBody f)).drop 1) := by
    simp [officeBody, toBytes]
  have htail : ((officeBody f ++ crcBytes (officeBody f)).drop 1).length = f.payload.length + 6 := by
    simp [length_officeBody, length_crcBytes]
  calc p.receive (officeBytes f)
      = (assembling p .hunting).receive (officeStart :: (officeBody f ++ crcBytes (officeBody f))) := by
        rw [assembling_self hp, officeBytes_eq]
    _ = (assembling p (.collecting [])).receive (officeBody f ++ crcBytes (officeBody f)) := by
        rw [receive_cons, receiveByte_hunting, if_pos rfl]
    _ = received p (.hunting, judgeOffice (officeBody f ++ crcBytes (officeBody f))) := by
        rw [hbytes]
        exact receive_frame p (by omega) (by have := hf.payload; omega) (by omega)
    _ = (assembling p .hunting).goodFrame f := by rw [judgeOffice_officeBody hf]; rfl
    _ = p.goodFrame f := by rw [assembling_self hp]

/-- Bytes without a start byte are hunted through. -/
theorem receive_hunted {p : Part} (hp : p.ofp.assembler = .hunting) {bs : List Byte} (h : ∀ x ∈ bs, x ≠ officeStart) :
    p.receive bs = p := by
  induction bs with
  | nil => rfl
  | cons b bs ih =>
      have hb : p.receiveByte b = p := by
        rw [← assembling_self hp, receiveByte_hunting, if_neg (h b (by simp))]
      rw [receive_cons, hb, ih fun x hx => h x (by simp [hx])]

/-- A length byte out of range drops the frame (R191). -/
theorem receive_badLength {p : Part} (hp : p.ofp.assembler = .hunting) {b : Byte} (hb : b.toNat < 4 ∨ 244 < b.toNat) {rest : List Byte}
    (hrest : ∀ x ∈ rest, x ≠ officeStart) : p.receive (officeStart :: b :: rest) = p := by
  have hdrop : (p.receiveByte officeStart).receiveByte b = p := by
    rw [← assembling_self hp, receiveByte_hunting, if_pos rfl, receiveByte_eq, feed_collecting [] b (natAt_head ..), if_pos hb]
    rfl
  rw [receive_cons, receive_cons, hdrop, receive_hunted hp hrest]

/-- The byte that ends a gap is hunted, and the frame in progress is dropped (R176). -/
theorem receiveByte_byteGap {p : Part} {bs : List Byte} (hp : p.ofp.assembler = .collecting bs) (b : Byte) :
    p.byteGap.receiveByte b = assembling p (if b = officeStart then .collecting [] else .hunting) := by
  have hgap : p.byteGap = assembling p .hunting := by
    unfold Part.byteGap
    rw [hp]
    rfl
  rw [hgap, receiveByte_hunting]

/-! ## The events of the office line -/

/-- An event of the line that touches the receiver alone hands nothing on and begins no frame. -/
theorem happens_receiver {s : State} (h : Live s.part) {f : Part → Part} {a : Assembler} {w : Option Instr}
    (hf : f s.part = { s.part with ofp := { s.part.ofp with assembler := a, waiting := w } }) :
    s.happens f = .next { s with part := { s.part with ofp := { s.part.ofp with assembler := a, waiting := w } } } :=
  happens_plain h (by rw [hf]; exact Part.settled_nil h.2.1) ⟨rfl, rfl, rfl⟩

/-- An event of the line that leaves the receiver as it was. -/
theorem happens_nothing {s : State} (h : Live s.part) {f : Part → Part} (hf : f s.part = s.part) :
    s.happens f = .next { s with part := s.part } := happens_receiver h hf

/-- Settles O36: the bytes of the frame are collected, judged good, and the frame takes the waiting place or is dropped. -/
theorem aGoodOfficeFrameTakesTheWaitingPlace : Obligations.AGoodOfficeFrameTakesTheWaitingPlace := by
  intro s f hlive hkind htag hdestination hpayload hhunting
  have hreceived := receive_officeBytes hhunting ⟨hkind, htag, hdestination, hpayload⟩
  refine ⟨fun hw => ?_, fun c hw => ?_⟩
  · exact happens_receiver hlive (hreceived.trans (by unfold Part.goodFrame; rw [hw]))
  · exact happens_nothing hlive (hreceived.trans (by unfold Part.goodFrame; rw [hw]))

/-- Settles O37: the frame in progress is dropped, and the assembler hunts from the byte that ends the gap or follows the length. -/
theorem brokenFramesAreDropped : Obligations.BrokenFramesAreDropped := by
  refine ⟨fun s bs b hlive hcollecting => ?_, fun s b rest hlive hhunting hb hrest => ?_⟩
  · exact happens_receiver hlive (receiveByte_byteGap hcollecting b)
  · exact happens_nothing hlive (receive_badLength hhunting hb hrest)

end Sys2Proof.Machine.OfficeLine
end

section
/-! PROOFS. What a command does to the Office Port besides its own reply (R177, R179, R181): the hand-offs between the blocks give notices
and leave the rest of the port. Here stands, block by block, that every operation leaves it. -/

namespace Sys2Proof.Machine

/-- The Office Port without its notices, NOTICE_LOST and sequence: the receiver, the waiting place, the replies, the transmitter. -/
def OfficePort.desk (o : OfficePort) : OfficePort := { o with notices := [], noticeLost := false, sequence := 0 }

end Sys2Proof.Machine

namespace Sys2Proof.Machine.OfficeDesk

/-! ## The desk -/

theorem replies_of_desk {o o' : OfficePort} (h : o'.desk = o.desk) : o'.replies = o.replies := (congrArg OfficePort.replies h :)

@[simp] theorem desk_ite {c : Prop} [Decidable c] (a b : Part) :
    (if c then a else b).ofp.desk = if c then a.ofp.desk else b.ofp.desk := by split <;> rfl

/-- Operations that leave the desk, carried out over a list, leave it. -/
theorem desk_foldl {α : Type} {f : Part → α → Part} (h : ∀ p a, (f p a).ofp.desk = p.ofp.desk) (l : List α) (p : Part) :
    (l.foldl f p).ofp.desk = p.ofp.desk := by
  induction l generalizing p with
  | nil => rfl
  | cons a l ih => rw [List.foldl_cons, ih, h]

/-- A notice enters its queue or is lost, and the desk stays as it is (R181). -/
@[simp] theorem desk_notify (p : Part) (n : Notice) : (p.notify n).ofp.desk = p.ofp.desk := by
  unfold Part.notify OfficePort.notify OfficePort.desk
  dsimp only
  split <;> rfl

/-! ## The Hall Map (chapters 1 and 2) -/

@[simp] theorem desk_invalidateBed (p : Part) (b : Bed) : (p.invalidateBed b).ofp.desk = p.ofp.desk := rfl
@[simp] theorem desk_withdrawBed (p : Part) (who : Requester) : (p.withdrawBed who).ofp.desk = p.ofp.desk := rfl

@[simp] theorem desk_setContent (p : Part) (b : Bed) (plate : Option Tag) (skeleton partlyCut : Bool) :
    (p.setContent b plate skeleton partlyCut).ofp.desk = p.ofp.desk := by simp [Part.setContent]

@[simp] theorem desk_bedJobEnd (p : Part) (e : JobEnding) (remnant : Option Nat) : (p.bedJobEnd e remnant).ofp.desk = p.ofp.desk := by
  simp [Part.bedJobEnd]

@[simp] theorem desk_grantBed (p : Part) (q : BedRequest) : (p.grantBed q).ofp.desk = p.ofp.desk := by
  cases q with
  | burn g b => rfl
  | claim n beds => exact desk_foldl (by intros; rfl) _ _

@[simp] theorem desk_requestBed (p : Part) (q : BedRequest) : (p.requestBed q).1.ofp.desk = p.ofp.desk := by
  unfold Part.requestBed
  split
  · exact desk_grantBed p q
  · exact desk_foldl (by intros; rfl) _ _

@[simp] theorem desk_offer (p : Part) (b : Bed) : (p.offer b).ofp.desk = p.ofp.desk := by
  unfold Part.offer
  split
  · rfl
  · split <;> simp

@[simp] theorem desk_putPresences (p : Part) (c : Crane) (f : Bed → Presence) : (p.putPresences c f).ofp.desk = p.ofp.desk :=
  desk_foldl (by intros; rfl) _ _

@[simp] theorem desk_changePresences (p : Part) (c : Crane) (f : Bed → Presence) : (p.changePresences c f).ofp.desk = p.ofp.desk := by
  simp [Part.changePresences]

@[simp] theorem desk_withdrawDuePoll (p : Part) (c : Crane) : (p.withdrawDuePoll c).ofp.desk = p.ofp.desk := rfl

@[simp] theorem desk_loseCrane (p : Part) (c : Crane) (cause : LossCause) : (p.loseCrane c cause).ofp.desk = p.ofp.desk := by
  simp [Part.loseCrane]

@[simp] theorem desk_bedLoadedPresences (p : Part) (b : Bed) : (p.bedLoadedPresences b).ofp.desk = p.ofp.desk :=
  desk_foldl (by intros; rfl) _ _

@[simp] theorem desk_bedAbsentPresences (p : Part) (b : Bed) : (p.bedAbsentPresences b).ofp.desk = p.ofp.desk :=
  desk_foldl (by intros; rfl) _ _

/-! ## The Job Store (chapter 3) -/

@[simp] theorem desk_releaseJob (p : Part) (j : JobNo) : (p.releaseJob j).ofp.desk = p.ofp.desk := rfl

@[simp] theorem desk_writeRecord (p : Part) (j : JobNo) (i : Nat) (r : Record) : (p.writeRecord j i r).ofp.desk = p.ofp.desk := by
  unfold Part.writeRecord
  split <;> rfl

@[simp] theorem desk_writeRecords (p : Part) (j : JobNo) (i : Nat) (rs : List Record) : (p.writeRecords j i rs).ofp.desk = p.ofp.desk := by
  induction rs generalizing p i with
  | nil => rfl
  | cons r rs ih => rw [Part.writeRecords, ih, desk_writeRecord]

theorem desk_popCompletion {p q : Part} {j : JobNo} (h : p.popCompletion = some (j, q)) : q.ofp.desk = p.ofp.desk := by
  unfold Part.popCompletion at h
  split at h
  · cases h
  · cases h; rfl

@[simp] theorem desk_activateHead (p : Part) (g : Gantry) (j : JobNo) : (p.activateHead g j).ofp.desk = p.ofp.desk := by
  simp [Part.activateHead]

@[simp] theorem desk_settleJob (p : Part) (g : Gantry) (j : JobNo) (c : Completion) : (p.settleJob g j c).ofp.desk = p.ofp.desk := by
  have hw : (p.writeRecord j 1 (.completion c)).ofp.desk = p.ofp.desk := desk_writeRecord ..
  unfold Part.settleJob
  dsimp only
  split
  · exact hw
  · split
    · exact (desk_notify ..).trans hw
    · exact hw

/-! ## The Mark Sequencer (chapter 7) -/

@[simp] theorem desk_endPhase (p : Part) (g : Gantry) (phase : MarkPhase) : (p.endPhase g phase).ofp.desk = p.ofp.desk := by
  simp [Part.endPhase, Part.batchNotice]

@[simp] theorem desk_sendText (p : Part) (g : Gantry) (e : MarkEntry) (x : Fin 4) (point : Point) :
    (p.sendText g e x point).ofp.desk = p.ofp.desk := rfl

@[simp] theorem desk_markPump (p : Part) (g : Gantry) : (p.markPump g).ofp.desk = p.ofp.desk := by
  unfold Part.markPump
  dsimp only
  split
  · split
    · simp
    · rfl
    · split
      · rfl
      · split <;> simp
  · rfl

@[simp] theorem desk_applyMark (p : Part) (g : Gantry) (x : Fin 4) (f : MarkSlot) (e : MarkEntry) (ok : Bool) :
    (p.applyMark g x f e ok).ofp.desk = p.ofp.desk := by simp [Part.applyMark]

@[simp] theorem desk_endRetry (p : Part) (g : Gantry) (ok : Bool) : (p.endRetry g ok).ofp.desk = p.ofp.desk := by simp [Part.endRetry]

@[simp] theorem desk_raiseUnderflow (p : Part) (g : Gantry) : (p.raiseUnderflow g).ofp.desk = p.ofp.desk := rfl

@[simp] theorem desk_markDone (p : Part) (g : Gantry) (slot : Nat) (ok : Bool) : (p.markDone g slot ok).ofp.desk = p.ofp.desk := by
  unfold Part.markDone
  split
  · rfl
  · split
    · simp
    · split
      · simp
      · dsimp only
        split
        · split <;> simp
        · simp

@[simp] theorem desk_markRefused (p : Part) (g : Gantry) (x : Fin 4) (code : Nat) : (p.markRefused g x code).ofp.desk = p.ofp.desk := by
  unfold Part.markRefused
  split <;> simp

@[simp] theorem desk_startRetry (p : Part) (g : Gantry) (part : Nat) : (p.startRetry g part).ofp.desk = p.ofp.desk := rfl

@[simp] theorem desk_decideRetry (p : Part) (g : Gantry) (part : Nat) : (p.decideRetry g part).ofp.desk = p.ofp.desk := by
  simp [Part.decideRetry]

@[simp] theorem desk_decideStatus (p : Part) (g : Gantry) (part : Nat) (status : MarkStatus) :
    (p.decideStatus g part status).ofp.desk = p.ofp.desk := by simp [Part.decideStatus]

@[simp] theorem desk_markJobEnd (p : Part) (g : Gantry) : (p.markJobEnd g).ofp.desk = p.ofp.desk := rfl
@[simp] theorem desk_emptyMarks (p : Part) (g : Gantry) (clearUnderflow : Bool) :
    (p.emptyMarks g clearUnderflow).ofp.desk = p.ofp.desk := rfl

/-! ## Height references (chapter 6) -/

@[simp] theorem desk_requestReference (p : Part) (g : Gantry) : (p.requestReference g).ofp.desk = p.ofp.desk := by
  simp [Part.requestReference]

@[simp] theorem desk_enterReference (p : Part) (g : Gantry) (ret : RefReturn) : (p.enterReference g ret).ofp.desk = p.ofp.desk := by
  simp [Part.enterReference]

@[simp] theorem desk_withdrawReference (p : Part) (g : Gantry) : (p.withdrawReference g).ofp.desk = p.ofp.desk := rfl

@[simp] theorem desk_actOnReturn (p : Part) (g : Gantry) : (p.actOnReturn g).ofp.desk = p.ofp.desk := by
  unfold Part.actOnReturn
  dsimp only
  split
  · simp
  · split <;> simp
  · simp

@[simp] theorem desk_idleReference (p : Part) (g : Gantry) : (p.idleReference g).ofp.desk = p.ofp.desk := by simp [Part.idleReference]

@[simp] theorem desk_releaseAsk (p : Part) (g : Gantry) : (p.releaseAsk g).ofp.desk = p.ofp.desk := by
  unfold Part.releaseAsk
  dsimp only
  split <;> simp

@[simp] theorem desk_afterIdleDone (p : Part) (g : Gantry) : (p.afterIdleDone g).ofp.desk = p.ofp.desk := by simp [Part.afterIdleDone]

@[simp] theorem desk_referenceDone (p : Part) (g : Gantry) : (p.referenceDone g).ofp.desk = p.ofp.desk := by
  unfold Part.referenceDone
  dsimp only
  split
  · rfl
  · split <;> simp

/-! ## The Burn Dispatcher (chapter 5) -/

@[simp] theorem desk_ownBed (p : Part) (g : Gantry) : (p.ownBed g).ofp.desk = p.ofp.desk := by simp [Part.ownBed]

@[simp] theorem desk_takeUp (p : Part) (g : Gantry) : (p.takeUp g).ofp.desk = p.ofp.desk := by
  unfold Part.takeUp
  dsimp only
  split
  · split
    · simp
    · next b _ =>
      have hr := desk_requestBed p (.burn g b)
      split
      · simp
      · split <;> next hq => rw [hq] at hr; simpa using hr
  · rfl

@[simp] theorem desk_gantryGranted (p : Part) (g : Gantry) : (p.gantryGranted g).ofp.desk = p.ofp.desk := by simp [Part.gantryGranted]

@[simp] theorem desk_checkRegistration (p : Part) (g : Gantry) (b : Bed) (tag : Tag) :
    (p.checkRegistration g b tag).ofp.desk = p.ofp.desk := by simp [Part.checkRegistration]

@[simp] theorem desk_handTexts (p : Part) (g : Gantry) (j : JobNo) : (p.handTexts g j).ofp.desk = p.ofp.desk := rfl

@[simp] theorem desk_startJob (p : Part) (g : Gantry) : (p.startJob g).ofp.desk = p.ofp.desk := by
  unfold Part.startJob
  split
  · rfl
  · split
    · dsimp only
      split
      · split <;> simp
      · simp
    · rfl

@[simp] theorem desk_registered (p : Part) (g : Gantry) (ox oy k : Int) : (p.registered g ox oy k).ofp.desk = p.ofp.desk := by
  unfold Part.registered
  dsimp only
  split
  · split
    · rfl
    · split
      · simp
      · split
        · simp
        · split <;> simp
  · rfl

@[simp] theorem desk_registerFailed (p : Part) (g : Gantry) : (p.registerFailed g).ofp.desk = p.ofp.desk := by simp [Part.registerFailed]

@[simp] theorem desk_passOver (p : Part) (g : Gantry) (j : JobNo) (i : Nat) : (p.passOver g j i).ofp.desk = p.ofp.desk := by
  unfold Part.passOver
  dsimp only
  split
  · rfl
  · split <;> simp

@[simp] theorem desk_enterPart (p : Part) (g : Gantry) (j : JobNo) (i : Nat) : (p.enterPart g j i).ofp.desk = p.ofp.desk := by
  unfold Part.enterPart
  dsimp only
  split <;> simp

@[simp] theorem desk_holdAt (p : Part) (g : Gantry) (part : Nat) (reasons : Held) (entry : Bool) :
    (p.holdAt g part reasons entry).ofp.desk = p.ofp.desk := by simp [Part.holdAt]

@[simp] theorem desk_boundary (p : Part) (g : Gantry) (entry : Bool) : (p.boundary g entry).ofp.desk = p.ofp.desk := by
  unfold Part.boundary
  dsimp only
  split
  · split
    · simp
    · simp only [desk_ite, desk_holdAt, desk_enterReference, desk_enterPart, Part.setEngine_ofp, ite_self]
      split <;> simp
  · rfl

@[simp] theorem desk_preparePierce (p : Part) (g : Gantry) : (p.preparePierce g).ofp.desk = p.ofp.desk := by
  unfold Part.preparePierce
  dsimp only
  split
  · split
    · split
      · simp
      · split <;> simp
    · rfl
  · rfl

@[simp] theorem desk_pierceOk (p : Part) (g : Gantry) : (p.pierceOk g).ofp.desk = p.ofp.desk := by
  unfold Part.pierceOk
  dsimp only
  split <;> simp

@[simp] theorem desk_pierceFailed (p : Part) (g : Gantry) : (p.pierceFailed g).ofp.desk = p.ofp.desk := by simp [Part.pierceFailed]

@[simp] theorem desk_withdrawSegments (p : Part) (g : Gantry) : (p.withdrawSegments g).ofp.desk = p.ofp.desk := rfl

@[simp] theorem desk_travelStop (p : Part) (g : Gantry) (i : Nat) : (p.travelStop g i).ofp.desk = p.ofp.desk := by simp [Part.travelStop]

@[simp] theorem desk_sendSegment (p : Part) (g : Gantry) (i : Nat) (r : Record) : (p.sendSegment g i r).ofp.desk = p.ofp.desk := by
  unfold Part.sendSegment
  split <;> simp

@[simp] theorem desk_stream (p : Part) (g : Gantry) : (p.stream g).ofp.desk = p.ofp.desk := by
  unfold Part.stream
  dsimp only
  split
  · split <;> simp
  · rfl

@[simp] theorem desk_segmentsDone (p : Part) (g : Gantry) (count : Nat) : (p.segmentsDone g count).ofp.desk = p.ofp.desk := by
  simp [Part.segmentsDone]

@[simp] theorem desk_stopCut (p : Part) (g : Gantry) : (p.stopCut g).ofp.desk = p.ofp.desk := by simp [Part.stopCut]
@[simp] theorem desk_stopPierce (p : Part) (g : Gantry) : (p.stopPierce g).ofp.desk = p.ofp.desk := by simp [Part.stopPierce]

@[simp] theorem desk_arrival (p : Part) (g : Gantry) : (p.arrival g).ofp.desk = p.ofp.desk := by
  unfold Part.arrival
  dsimp only
  split <;> simp

@[simp] theorem desk_resume (p : Part) (g : Gantry) (i fraction : Nat) : (p.resume g i fraction).ofp.desk = p.ofp.desk := by
  unfold Part.resume
  dsimp only
  split
  · rfl
  · split
    · simp
    · split <;> simp

@[simp] theorem desk_clearance (p : Part) (g : Gantry) : (p.clearance g).ofp.desk = p.ofp.desk := by
  unfold Part.clearance
  dsimp only
  split
  · simp
  · split <;> simp
  · rfl

@[simp] theorem desk_stoppedAt (p : Part) (g : Gantry) (i fraction : Nat) : (p.stoppedAt g i fraction).ofp.desk = p.ofp.desk := by
  simp [Part.stoppedAt]

@[simp] theorem desk_faultWithoutJob (p : Part) (g : Gantry) (cause : StateCause) (code : Option Nat) :
    (p.faultWithoutJob g cause code).ofp.desk = p.ofp.desk := by simp [Part.faultWithoutJob]

@[simp] theorem desk_machine (p : Part) (g : Gantry) (code : Nat) (arcStop : Bool) : (p.machine g code arcStop).ofp.desk = p.ofp.desk := by
  unfold Part.machine
  dsimp only
  split
  · simp
  · split <;> simp

@[simp] theorem desk_engineLost (p : Part) (g : Gantry) : (p.engineLost g).ofp.desk = p.ofp.desk := by
  unfold Part.engineLost
  dsimp only
  split
  · simp
  · split <;> simp

@[simp] theorem desk_jobEnd (p : Part) (g : Gantry) (outcome : JobOutcome) (stop : Option Nat) (goes : EndTo) :
    (p.jobEnd g outcome stop goes).ofp.desk = p.ofp.desk := by
  unfold Part.jobEnd
  dsimp only
  split
  · rfl
  · split <;> simp

@[simp] theorem desk_engineEnd (p : Part) (g : Gantry) (x : JobEnding) : (p.engineEnd g x).ofp.desk = p.ofp.desk := by
  unfold Part.engineEnd
  dsimp only
  split <;> simp

@[simp] theorem desk_faultEvent (p : Part) (g : Gantry) (code : Nat) : (p.faultEvent g code).ofp.desk = p.ofp.desk := by
  unfold Part.faultEvent
  split <;> simp

@[simp] theorem desk_gantryEvent (p : Part) (g : Gantry) (e : GantryEvent) : (p.gantryEvent g e).ofp.desk = p.ofp.desk := by
  cases e <;> simp [Part.gantryEvent]

/-! ## The Remnant Stock Unit (chapter 9) -/

@[simp] theorem desk_changeRemnant (p : Part) (n : Nat) (f : Remnant → Remnant) : (p.changeRemnant n f).ofp.desk = p.ofp.desk := by
  unfold Part.changeRemnant
  split <;> simp

@[simp] theorem desk_remnantSet (p : Part) (n : Nat) (location : Option Location) (state : Option RemnantState) :
    (p.remnantSet n location state).ofp.desk = p.ofp.desk := desk_changeRemnant ..

@[simp] theorem desk_remnantGone (p : Part) (n : Nat) : (p.remnantGone n).ofp.desk = p.ofp.desk := by simp [Part.remnantGone]

@[simp] theorem desk_createRemnant (p : Part) (r : Remnant) : (p.createRemnant r).ofp.desk = p.ofp.desk := rfl

@[simp] theorem desk_changeSlot (p : Part) (k : SlotNo) (f : SlotRec → SlotRec) : (p.changeSlot k f).ofp.desk = p.ofp.desk := rfl

@[simp] theorem desk_pushSlot (p : Part) (k : SlotNo) (n : Nat) (claim : Option OrderNo) (state : Option RemnantState) :
    (p.pushSlot k n claim state).ofp.desk = p.ofp.desk := by simp [Part.pushSlot]

@[simp] theorem desk_settleBurned (p : Part) (e : JobEnding) : (p.settleBurned e).ofp.desk = p.ofp.desk := by
  unfold Part.settleBurned
  split <;> simp

@[simp] theorem desk_settleLeft (p : Part) (e : JobEnding) : (p.settleLeft e).1.ofp.desk = p.ofp.desk := by
  unfold Part.settleLeft
  split
  · rfl
  · dsimp only
    split
    · split <;> simp
    · rfl

@[simp] theorem desk_settleStock (p : Part) (g : Gantry) (e : JobEnding) : (p.settleStock g e).ofp.desk = p.ofp.desk := by
  simp [Part.settleStock]

@[simp] theorem desk_stockTold (p : Part) (n : OrderNo) (endState : OrderState) : (p.stockTold n endState).ofp.desk = p.ofp.desk := by
  unfold Part.stockTold
  split <;> simp

@[simp] theorem desk_putRemnant (p : Part) (n : Nat) (loc : Bed ⊕ SlotNo) : (p.putRemnant n loc).ofp.desk = p.ofp.desk := by
  cases loc <;> simp [Part.putRemnant, Part.placePlate]

/-! ## The Crane Order Unit (chapter 8) -/

theorem desk_placeOrder {p q : Part} {o : Order} {n : OrderNo} (h : p.placeOrder o = some (q, n)) : q.ofp.desk = p.ofp.desk := by
  unfold Part.placeOrder at h
  split at h
  · cases h
  · cases h; simp

theorem desk_placeOrders (os : List Order) (p : Part) : (p.placeOrders os).1.ofp.desk = p.ofp.desk := by
  induction os generalizing p with
  | nil => rfl
  | cons o os ih =>
      unfold Part.placeOrders
      split
      · next h => exact (ih _).trans (desk_placeOrder h)
      · exact ih p

theorem desk_placeList {p q : Part} {c : Crane} {os : List Order} {ns : List OrderNo} (h : p.placeList c os = .ok (q, ns)) :
    q.ofp.desk = p.ofp.desk := by
  unfold Part.placeList at h
  split at h
  · cases h
  · split at h
    · cases h
    · have hd := desk_placeOrders os p
      rwa [Except.ok.inj h] at hd

@[simp] theorem desk_slotClaim (p : Part) (x : Place) (claim : Option OrderNo) : (p.slotClaim x claim).ofp.desk = p.ofp.desk := by
  unfold Part.slotClaim
  split <;> simp

@[simp] theorem desk_withdrawClaim (p : Part) (n : OrderNo) (o : Order) : (p.withdrawClaim n o).ofp.desk = p.ofp.desk := by
  simp [Part.withdrawClaim]

@[simp] theorem desk_requestOrder (p : Part) (n : OrderNo) (o : Order) : (p.requestOrder n o).ofp.desk = p.ofp.desk := rfl

@[simp] theorem desk_release (p : Part) (n : OrderNo) : (p.release n).ofp.desk = p.ofp.desk := by
  unfold Part.release
  dsimp only
  split
  · rfl
  · rw [Part.setOrder_ofp, desk_requestOrder]
    split <;> simp

@[simp] theorem desk_evalOrder (p : Part) (n : OrderNo) (o : Order) : (p.evalOrder n o).ofp.desk = p.ofp.desk := by
  have hr := desk_requestBed p (.claim n o.claims)
  unfold Part.evalOrder
  dsimp only
  split
  · simp
  · split
    · simp
    · split
      · simp
      · split <;> next hq => rw [hq] at hr; simpa using hr

@[simp] theorem desk_evalHead (p : Part) (c : Crane) : (p.evalHead c).ofp.desk = p.ofp.desk := by
  unfold Part.evalHead
  split
  · rfl
  · split <;> simp

@[simp] theorem desk_evalNewHead (p : Part) (c : Crane) (before : Option OrderNo) : (p.evalNewHead c before).ofp.desk = p.ofp.desk := by
  simp [Part.evalNewHead]

@[simp] theorem desk_orderGranted (p : Part) (n : OrderNo) : (p.orderGranted n).ofp.desk = p.ofp.desk := by
  unfold Part.orderGranted
  split <;> simp

@[simp] theorem desk_craneReport (p : Part) (c : Crane) : (p.craneReport c).ofp.desk = p.ofp.desk := by
  unfold Part.craneReport
  split <;> simp

@[simp] theorem desk_freePlace (p : Part) (x : Place) (held : Bool) : (p.freePlace x held).ofp.desk = p.ofp.desk := by
  unfold Part.freePlace
  split
  · split <;> simp
  · rfl

@[simp] theorem desk_restoreRemnant (p : Part) (o : Order) (location : Option Location) :
    (p.restoreRemnant o location).ofp.desk = p.ofp.desk := by
  unfold Part.restoreRemnant
  split <;> simp

@[simp] theorem desk_abortOrder (p : Part) (n : OrderNo) (o : Order) (cause : OrderCause) :
    (p.abortOrder n o cause).ofp.desk = p.ofp.desk := by simp [Part.abortOrder]

@[simp] theorem desk_picked (p : Part) (n : OrderNo) : (p.picked n).ofp.desk = p.ofp.desk := by
  unfold Part.picked
  dsimp only
  split
  · rfl
  · split
    · split <;> split <;> simp [Part.liftPlate, Part.liftSkeleton]
    · split <;> simp
    · simp

@[simp] theorem desk_placed (p : Part) (n : OrderNo) : (p.placed n).ofp.desk = p.ofp.desk := by
  unfold Part.placed
  dsimp only
  split
  · rfl
  · rw [Part.emit_ofp]
    split
    · split <;> simp [Part.placePlate]
    · split <;> simp
    · split <;> simp
    · simp

@[simp] theorem desk_orderEvent (p : Part) (c : Crane) (k : OrderEventKind) (n : OrderNo) : (p.orderEvent c k n).ofp.desk = p.ofp.desk := by
  unfold Part.orderEvent
  split
  · rfl
  · split
    · split <;> simp
    · rfl

@[simp] theorem desk_orderEnd (p : Part) (n : OrderNo) (endState : OrderState) (cause : Option OrderCause) (cascade : Bool) :
    (p.orderEnd n endState cause cascade).ofp.desk = p.ofp.desk := by
  unfold Part.orderEnd
  split <;> simp

@[simp] theorem desk_cancelRestack (p : Part) (n : OrderNo) : (p.cancelRestack n).ofp.desk = p.ofp.desk := by
  unfold Part.cancelRestack
  split <;> simp

/-! ## Hand-offs (log 6) -/

/-- What a hand-off does to the Office Port is give notices. -/
@[simp] theorem desk_micro (p : Part) (t : Task) : (p.micro t).ofp.desk = p.ofp.desk := by
  cases t with
  | contentReport | slotReport | remnantReport | releaseOwner | releaseClaim | finishDisable => rfl
  | _ => simp [Part.micro]

theorem desk_settle (k : Nat) (p : Part) : (settle k p).ofp.desk = p.ofp.desk := by
  induction k generalizing p with
  | zero => rfl
  | succ k ih =>
      unfold settle
      split
      · rfl
      · next t rest _ => exact (ih _).trans (desk_micro { p with agenda := [] } t)

@[simp] theorem desk_settled (p : Part) : p.settled.ofp.desk = p.ofp.desk := desk_settle Config.agendaFuel p

end Sys2Proof.Machine.OfficeDesk
end

section
/-! PROOFS. Requests (R176 to R179, R183 to R186): how each owner answers. Its answer leaves the Office Port alone but for notices,
and a refusal changes nothing. -/

namespace Sys2Proof.Machine.OfficeDesk

/-! ## What an owner may answer -/

/-- An owner's answer leaves the desk, and when it refuses it leaves the whole part and names no field (00 §7). -/
structure Orderly (p : Part) (a : Answered) : Prop where
  desk : a.1.ofp.desk = p.ofp.desk
  refused : a.2.1 ≠ .ok → a = refuse p a.2.1

theorem Orderly.ok {p q : Part} (h : q.ofp.desk = p.ofp.desk) (body : ReplyBody) : Orderly p (q, .ok, body) :=
  ⟨h, fun hc => absurd rfl hc⟩

theorem Orderly.accept {p q : Part} (h : q.ofp.desk = p.ofp.desk) : Orderly p (accept q) := .ok h .none

theorem Orderly.refuse (p : Part) (code : Reason) : Orderly p (refuse p code) := ⟨rfl, fun _ => rfl⟩

theorem Orderly.ite {c : Prop} [Decidable c] {p : Part} {a b : Answered} (ha : Orderly p a) (hb : Orderly p b) :
    Orderly p (if c then a else b) := by
  split <;> assumption

theorem Orderly.checked {p : Part} {checks : List (Bool × Reason)} {body : Answered} (h : Orderly p body) :
    Orderly p (checked p checks body) := by
  unfold Machine.checked
  split
  · exact h
  · exact .refuse p _

theorem Orderly.indexed {k : Nat} {p : Part} {i : Nat} {body : Fin k → Answered} (h : ∀ x, Orderly p (body x)) :
    Orderly p (indexed p i body) := by
  unfold Machine.indexed
  split
  · exact h _
  · exact .refuse p _

theorem Orderly.allocated {p : Part} {job : Nat} {body : JobNo → JobEntry → Answered} (h : ∀ j e, Orderly p (body j e)) :
    Orderly p (allocated p job body) := by
  unfold Machine.allocated
  split
  · exact .ite (.refuse p _) (h _ _)
  · exact .refuse p _

theorem Orderly.recorded {p : Part} {n : Nat} {body : Remnant → Answered} (h : ∀ r, Orderly p (body r)) :
    Orderly p (recorded p n body) := by
  unfold Machine.recorded
  split
  · exact h _
  · exact .refuse p _

/-! ## The requests of the Job Store (chapter 3) -/

theorem jobOpen_orderly (p : Part) (pages : Nat) : Orderly p (jobOpen p pages) := by
  unfold jobOpen
  refine .ite (.refuse p _) ?_
  split
  · exact .refuse p _
  · refine .ite (.refuse p _) ?_
    exact ⟨rfl, fun hc => absurd rfl hc⟩

theorem jobWrite_orderly (p : Part) (job offset : Nat) (records : List (List Byte)) : Orderly p (jobWrite p job offset records) := by
  refine .allocated fun j e => .checked ?_
  split
  · exact .accept (desk_writeRecords ..)
  · exact .refuse p _

theorem jobRead_orderly (p : Part) (job offset count : Nat) : Orderly p (jobRead p job offset count) :=
  .allocated fun _ _ => .checked (.ok rfl _)

theorem jobEnqueue_orderly (p : Part) (job gantry : Nat) : Orderly p (jobEnqueue p job gantry) := by
  refine .allocated fun j e => .indexed fun g => .ite (.refuse p _) ?_
  split
  · exact .checked (.ok (by simp) _)
  · exact .refuse p _

theorem jobRelease_orderly (p : Part) (job : Nat) : Orderly p (jobRelease p job) :=
  .allocated fun _ _ => .ite (.accept rfl) (.refuse p _)

theorem completionAck_orderly (p : Part) : Orderly p (completionAck p) := by
  unfold completionAck
  split
  · exact .refuse p _
  · next h => exact .ok (desk_popCompletion h) _

theorem completionAckAndRelease_orderly (p : Part) : Orderly p (completionAckAndRelease p) := by
  unfold completionAckAndRelease
  split
  · exact .refuse p _
  · next h => exact .ok ((desk_releaseJob ..).trans (desk_popCompletion h)) _

/-! ## The requests of the Burn Dispatcher and the Mark Sequencer (chapters 5 and 7) -/

theorem gantryEnable_orderly (p : Part) (gantry : Nat) : Orderly p (gantryEnable p gantry) :=
  .indexed fun _ => .checked (.accept rfl)

theorem gantryDisable_orderly (p : Part) (gantry : Nat) : Orderly p (gantryDisable p gantry) :=
  .indexed fun _ => .checked (.accept (by simp))

theorem gantryHold_orderly (p : Part) (gantry : Nat) : Orderly p (gantryHold p gantry) := .indexed fun _ => .accept (by simp)

theorem gantryRelease_orderly (p : Part) (gantry : Nat) : Orderly p (gantryRelease p gantry) := by
  refine .indexed fun g => .ite (.accept rfl) ?_
  split <;> exact .accept rfl

theorem partDecision_orderly (p : Part) (gantry part decision : Nat) : Orderly p (partDecision p gantry part decision) := by
  refine .indexed fun g => .checked (.accept ?_)
  split <;> simp

/-! ## The requests on beds, cranes and orders (chapters 1, 2 and 8) -/

theorem bedDeclare_orderly (p : Part) (bed : Nat) (plate : RawTag) (condition : Nat) : Orderly p (bedDeclare p bed plate condition) := by
  refine .indexed fun b => ?_
  dsimp only
  split
  · exact .checked (.accept (desk_setContent ..))
  · exact .refuse p _

theorem bedClearRequest_orderly (p : Part) (bed : Nat) : Orderly p (bedClearRequest p bed) := by
  refine .indexed fun b => .ite (.refuse p _) (.accept ?_)
  rw [desk_setContent]
  split <;> rfl

theorem craneOrder_orderly (p : Part) (tag crane : Nat) (source destination : RawPlace) (load : RawTag) :
    Orderly p (craneOrder p tag crane source destination load) := by
  refine .indexed fun c => ?_
  split
  · refine .checked ?_
    split
    · next h => exact .ok (desk_placeOrder h) _
    · exact .refuse p _
  · exact .refuse p _

theorem craneOrderCancel_orderly (p : Part) (order : Nat) : Orderly p (craneOrderCancel p order) := by
  refine .indexed fun n => ?_
  split
  · exact .refuse p _
  · exact .ite (.accept rfl) (.refuse p _)

/-! ## The requests of the Remnant Stock Unit (chapter 9) -/

theorem remnantEnter_orderly (p : Part) (grade thickness width length heatLength : Nat) (heatChars : List Byte) (location : RawPlace) :
    Orderly p (remnantEnter p grade thickness width length heatLength heatChars location) := by
  unfold remnantEnter
  split
  · exact .checked (.ok (by simp) _)
  · exact .refuse p _

theorem remnantRemove_orderly (p : Part) (n : Nat) : Orderly p (remnantRemove p n) := by
  refine .recorded fun r => .checked (.accept ?_)
  rw [desk_remnantGone]
  split <;> rfl

theorem remnantRelocate_orderly (p : Part) (n : Nat) (location : RawPlace) : Orderly p (remnantRelocate p n location) := by
  refine .recorded fun r => ?_
  split
  · exact .refuse p _
  · exact .checked (.accept (desk_putRemnant ..))

theorem remnantUnreserve_orderly (p : Part) (n : Nat) : Orderly p (remnantUnreserve p n) :=
  .recorded fun _ => .checked (.accept (desk_changeRemnant ..))

theorem store_orderly (p : Part) (tag n : Nat) : Orderly p (store p tag n) := by
  refine .recorded fun r => ?_
  split
  · refine .checked ?_
    split
    · split
      · next h => exact .ok (desk_placeList h) _
      · exact .refuse p _
      · exact .refuse p _
    · exact .refuse p _
  · exact .refuse p _

theorem takeWinner_orderly (p : Part) (w : Fitting) (reservation : Nat) : Orderly p (p.takeWinner w reservation) := by
  unfold Part.takeWinner Part.reserve
  split
  · exact .ok (desk_changeRemnant ..) _
  · split
    · exact .refuse p _
    · split
      · exact .refuse p _
      · next h => exact .ok ((desk_changeRemnant ..).trans (desk_placeList h)) _
  · exact .refuse p _

theorem remnantRequest_orderly (p : Part) (grade thickness w l rotate deep reservation : Nat) :
    Orderly p (remnantRequest p grade thickness w l rotate deep reservation) := by
  refine .checked ?_
  split
  · exact .refuse p _
  · exact takeWinner_orderly ..

/-! ## The tables (R182, R183) -/

theorem loadBed_orderly (p : Part) (index loaded : Nat) (xLo xHi yLo yHi ox oy : Int) :
    Orderly p (loadBed p index loaded xLo xHi yLo yHi ox oy) :=
  .indexed fun _ => .checked (.ite (.accept (by simp)) (.accept (by simp)))

theorem loadGantry_orderly (p : Part) (index loaded reach : Nat) (w : Rect) (period retryLimit autoRelease mode depth : Nat) :
    Orderly p (loadGantry p index loaded reach w period retryLimit autoRelease mode depth) :=
  .indexed fun _ => .checked (.accept rfl)

theorem loadCrane_orderly (p : Part) (index installed margin timeout rack : Nat) :
    Orderly p (loadCrane p index installed margin timeout rack) := .indexed fun _ => .checked (.accept (by simp))

theorem loadSlot_orderly (p : Part) (index loaded : Nat) (x y : Int) (maxWidth maxLength : Nat) :
    Orderly p (loadSlot p index loaded x y maxWidth maxLength) := .indexed fun _ => .checked (.accept rfl)

theorem loadPass_orderly (p : Part) (index diagnostic parameter motion io : Nat) :
    Orderly p (loadPass p index diagnostic parameter motion io) := by
  refine .indexed fun x => ?_
  split
  · exact .accept rfl
  · exact .refuse p _

theorem loadBand_orderly (p : Part) (index loaded bound margin : Nat) : Orderly p (loadBand p index loaded bound margin) :=
  .indexed fun _ => .checked (.accept rfl)

theorem loadController_orderly (p : Part) (index window : Nat) (hallLength hallWidth : Int) (digPenalty digReserve minimumSize : Nat) :
    Orderly p (loadController p index window hallLength hallWidth digPenalty digReserve minimumSize) := .checked (.accept rfl)

theorem readTable_orderly (p : Part) (range first count step : Nat) (header : Option (Nat × Nat)) (entry : Nat → Option Entry) :
    Orderly p (readTable p range first count step header entry) := by
  refine .checked ?_
  split
  · exact .refuse p _
  · exact .ok rfl _

/-! ## The owner of a request (R177) -/

/-- A request row is answered by an owner. Every owner's answer is orderly but that of CONTROLLER RESET, which may end a passthrough. -/
theorem exec_request {c : Instr} {kind tag : Nat} (h : requestHead? c = some (kind, tag)) :
    ∃ owner, (∀ s, exec c s = s.serve c kind tag owner) ∧ ((∀ n, c ≠ .controllerReset n) → ∀ p, Orderly p (owner p)) := by
  cases c with
  | jobOpen => cases h; exact ⟨_, fun _ => rfl, fun _ p => jobOpen_orderly p _⟩
  | jobWrite => cases h; exact ⟨_, fun _ => rfl, fun _ p => jobWrite_orderly p ..⟩
  | jobRead => cases h; exact ⟨_, fun _ => rfl, fun _ p => jobRead_orderly p ..⟩
  | jobEnqueue => cases h; exact ⟨_, fun _ => rfl, fun _ p => jobEnqueue_orderly p ..⟩
  | jobRelease => cases h; exact ⟨_, fun _ => rfl, fun _ p => jobRelease_orderly p _⟩
  | completionAck => cases h; exact ⟨_, fun _ => rfl, fun _ p => completionAck_orderly p⟩
  | completionAckAndRelease => cases h; exact ⟨_, fun _ => rfl, fun _ p => completionAckAndRelease_orderly p⟩
  | gantryEnable => cases h; exact ⟨_, fun _ => rfl, fun _ p => gantryEnable_orderly p _⟩
  | gantryDisable => cases h; exact ⟨_, fun _ => rfl, fun _ p => gantryDisable_orderly p _⟩
  | gantryHold => cases h; exact ⟨_, fun _ => rfl, fun _ p => gantryHold_orderly p _⟩
  | gantryRelease => cases h; exact ⟨_, fun _ => rfl, fun _ p => gantryRelease_orderly p _⟩
  | partDecision => cases h; exact ⟨_, fun _ => rfl, fun _ p => partDecision_orderly p ..⟩
  | bedDeclare => cases h; exact ⟨_, fun _ => rfl, fun _ p => bedDeclare_orderly p ..⟩
  | bedClear => cases h; exact ⟨_, fun _ => rfl, fun _ p => bedClearRequest_orderly p _⟩
  | craneOrder => cases h; exact ⟨_, fun _ => rfl, fun _ p => craneOrder_orderly p ..⟩
  | craneOrderCancel => cases h; exact ⟨_, fun _ => rfl, fun _ p => craneOrderCancel_orderly p _⟩
  | remnantEnter => cases h; exact ⟨_, fun _ => rfl, fun _ p => remnantEnter_orderly p ..⟩
  | remnantRemove => cases h; exact ⟨_, fun _ => rfl, fun _ p => remnantRemove_orderly p _⟩
  | remnantRelocate => cases h; exact ⟨_, fun _ => rfl, fun _ p => remnantRelocate_orderly p ..⟩
  | remnantUnreserve => cases h; exact ⟨_, fun _ => rfl, fun _ p => remnantUnreserve_orderly p _⟩
  | store => cases h; exact ⟨_, fun _ => rfl, fun _ p => store_orderly p ..⟩
  | remnantRequest => cases h; exact ⟨_, fun _ => rfl, fun _ p => remnantRequest_orderly p ..⟩
  | loadEntryBed => cases h; exact ⟨_, fun _ => rfl, fun _ p => loadBed_orderly p ..⟩
  | loadEntryGantry => cases h; exact ⟨_, fun _ => rfl, fun _ p => loadGantry_orderly p ..⟩
  | loadEntryCrane => cases h; exact ⟨_, fun _ => rfl, fun _ p => loadCrane_orderly p ..⟩
  | loadEntrySlot => cases h; exact ⟨_, fun _ => rfl, fun _ p => loadSlot_orderly p ..⟩
  | loadEntryPass => cases h; exact ⟨_, fun _ => rfl, fun _ p => loadPass_orderly p ..⟩
  | loadEntryBand => cases h; exact ⟨_, fun _ => rfl, fun _ p => loadBand_orderly p ..⟩
  | loadEntryController => cases h; exact ⟨_, fun _ => rfl, fun _ p => loadController_orderly p ..⟩
  | readEntryBed | readEntryGantry | readEntryCrane | readEntrySlot | readEntryPass | readEntryBand | readEntryController
  | readEntryPresence | readEntryRegistration | readEntryJob | readEntryMark | readEntryOrder | readEntryRemnant
  | readEntryStation => cases h; exact ⟨_, fun _ => rfl, fun _ p => readTable_orderly p ..⟩
  | readStatus => cases h; exact ⟨_, fun _ => rfl, fun _ p => .ok rfl _⟩
  | clearFlags => cases h; exact ⟨_, fun _ => rfl, fun _ p => .accept rfl⟩
  | controllerReset => cases h; exact ⟨_, fun _ => rfl, fun hc => absurd rfl (hc _)⟩
  | unknownRequest => cases h; exact ⟨_, fun _ => rfl, fun _ p => .refuse p _⟩
  | _ => cases h

end Sys2Proof.Machine.OfficeDesk
end

section
/-! PROOFS. What becomes of a request (R175 to R180, R186, R187): one that is not taken, and the reply to one that is. -/

namespace Sys2Proof.Machine.OfficeDesk

/-! ## Requests that are not taken (R176, R177, R187) -/

/-- A request row stands at the waiting place (R177). -/
theorem exec_waiting {c : Instr} (h : isRequest c = true) :
    ∃ body, ∀ s : State, exec c s = .next { s with part := s.part.request? c body } := by
  unfold isRequest at h
  split at h
  · exact ⟨_, fun _ => rfl⟩
  · obtain ⟨tag, htag⟩ := Option.isSome_iff_exists.1 h
    obtain ⟨⟨kind, _⟩, hhead, rfl⟩ := Option.map_eq_some_iff.1 htag
    obtain ⟨owner, hx, _⟩ := exec_request hhead
    exact ⟨_, hx⟩

/-- Every other row but a reset is an event. -/
theorem exec_event {c : Instr} (h : isRequest c = false) (hcold : ∀ byInput, c ≠ .coldReset byInput)
    (hrelease : c ≠ .resetInputRelease) : ∃ f, ∀ s : State, exec c s = s.happens f := by
  cases c with
  | officeFrameReceived | officeByteGap | officeTransmitDone | floorGrant | missSilenceEnd | answerWindowExpiry | badAnswer
  | cranePollAnswer | gantryPollAnswer | answerAck | answerRefuse | passthroughAnswer | duePollRaise | positionTimeout
  | reportAgeTick | officeLengthDrop => exact ⟨_, fun _ => rfl⟩
  | coldReset byInput => exact absurd rfl (hcold byInput)
  | resetInputRelease => exact absurd rfl hrelease
  | _ => cases h

theorem request?_held {p : Part} (h : p.ofp.resetHeld = true) (c : Instr) (body : Part → Part) : p.request? c body = p := by
  simp [Part.request?, OfficePort.admission, h]

theorem request?_dropped {p : Part} {c d : Instr} (h : p.ofp.waiting = some d) (hd : d ≠ c) (body : Part → Part) :
    p.request? c body = p := by
  simp [Part.request?, OfficePort.admission, h, hd]

theorem request?_waits {p : Part} {c : Instr} (hheld : p.ofp.resetHeld = false) (hw : p.ofp.waiting = none ∨ p.ofp.waiting = some c)
    (hplace : p.ofp.hasReplyPlace = false) (body : Part → Part) :
    p.request? c body = { p with ofp := { p.ofp with waiting := some c } } := by
  have hempty : p.ofp.waiting.any (· != c) = false := by
    rcases hw with hw | hw <;> simp [hw]
  simp [Part.request?, OfficePort.admission, hheld, hempty, hplace]

theorem exec_held {c : Instr} {s : State} (h : s.part.ofp.resetHeld = true) (hcold : ∀ byInput, c ≠ .coldReset byInput)
    (hrelease : c ≠ .resetInputRelease) : exec c s = .next s := by
  cases hc : isRequest c with
  | true =>
      obtain ⟨body, hx⟩ := exec_waiting hc
      rw [hx, request?_held h]
  | false =>
      obtain ⟨f, hx⟩ := exec_event hc hcold hrelease
      rw [hx, State.happens, Part.happens, if_pos h]

/-- Settles O3, by what the waiting place makes of a request that it does not take. -/
theorem requestsThatAreNotTaken : Obligations.RequestsThatAreNotTaken := by
  refine fun c s => ⟨exec_held, fun hc hheld hw hplace => ?_, fun d hc _ hw hd => ?_⟩
  · obtain ⟨body, hx⟩ := exec_waiting hc
    rw [Leaves, hx, request?_waits hheld hw hplace]
  · obtain ⟨body, hx⟩ := exec_waiting hc
    rw [hx, request?_dropped hw hd]

/-! ## The reply to a taken request (R179, R180) -/

/-- No reply waits for a free transmitter when a request is taken (R180). -/
theorem replies_of_free {c : Instr} {p : Part} (h : Ready c p) (hn : p.ofp.sending = none) : p.ofp.replies = [] := by
  obtain ⟨⟨_, _, hrest⟩, _, _⟩ := h
  exact (hrest hn).1

/-- A request that is taken: its owner's answer, settled, then the reply, then the transmitter. -/
theorem serve_taken {c : Instr} {s : State} (h : Ready c s.part) (kind tag : Nat) (owner : Part → Answered) :
    s.serve c kind tag owner
      = .next { s with part :=
          ((owner s.part.taking).1.settled.reply kind tag (owner s.part.taking).2.1 (owner s.part.taking).2.2).transmit } := by
  unfold State.serve Part.serve
  rw [Part.request?_ready h]

/-- The desk of a part whose request has been taken, with the replies in `ended` behind those that waited. -/
def takenDesk (p : Part) (ended : List Reply) : OfficePort := { p.ofp.desk with waiting := none, replies := p.ofp.replies ++ ended }

/-- What the reply `r` makes of the Office Port `o`, entering behind the replies in `ended`: it is last in the queue, and a free transmitter
begins the reply that entered first. -/
structure RepliedBehind (o : OfficePort) (ended : List Reply) (r : Reply) (o' : OfficePort) : Prop where
  waiting : o'.waiting = none
  busy : ∀ f, o.sending = some f → o'.sending = some f ∧ o'.replies = o.replies ++ ended ++ [r]
  free : o.sending = none → ∃ first, o'.sending = some (.reply first) ∧ first :: o'.replies = ended ++ [r]

/-- A reply that enters a settled part is sent, or stands last behind those that wait. -/
theorem reply_transmit_behind {p q : Part} {ended : List Reply} (hd : q.ofp.desk = takenDesk p ended)
    (hrest : p.ofp.sending = none → p.ofp.replies = []) (kind tag : Nat) (code : Reason) (body : ReplyBody) :
    RepliedBehind p.ofp ended { kind := kind, tag := tag, code := code, body := body } (q.reply kind tag code body).transmit.ofp := by
  have hw : (q.reply kind tag code body).ofp.waiting = none := (congrArg OfficePort.waiting hd :)
  have hs : (q.reply kind tag code body).ofp.sending = p.ofp.sending := (congrArg OfficePort.sending hd :)
  have hr : q.ofp.replies = p.ofp.replies ++ ended := (congrArg OfficePort.replies hd :)
  have hreplies : (q.reply kind tag code body).ofp.replies
      = p.ofp.replies ++ ended ++ [{ kind := kind, tag := tag, code := code, body := body }] := by rw [← hr]; rfl
  cases hf : p.ofp.sending with
  | some f =>
      rw [Part.transmit_busy (hs.trans hf)]
      exact ⟨hw, fun f' hf' => ⟨hs.trans hf', hreplies⟩, fun hn => by cases hf.symm.trans hn⟩
  | none =>
      rw [hrest hf, List.nil_append] at hreplies
      have hne : ended ++ [({ kind := kind, tag := tag, code := code, body := body } : Reply)] ≠ [] := by simp
      obtain ⟨first, rest, hfirst⟩ := List.exists_cons_of_ne_nil hne
      rw [FloorLine.transmit_reply (hs.trans hf) (hreplies.trans hfirst)]
      exact ⟨hw, fun f' hf' => (by cases hf.symm.trans hf'), fun _ => ⟨first, rfl, hfirst.symm⟩⟩

/-- A refused request leaves the part as it was, with its reply at the Office Port (00 §7). -/
theorem refused_transmit {c : Instr} {p : Part} (h : Ready c p) (kind tag : Nat) (code : Reason) :
    (p.taking.settled.reply kind tag code .none).transmit
      = { p with ofp := p.ofp.answeredWith { kind := kind, tag := tag, code := code } } := by
  rw [Part.settled_nil (p := p.taking) h.1.2.1]
  exact Part.reply_transmit kind tag code .none (fun hn => replies_of_free (p := p) h hn) rfl

/-! ## CONTROLLER RESET (R175, R186) -/

/-- What a passthrough that a CONTROLLER RESET ends may have put into the reply queue (R175, R180). -/
def PassEnded (ended : List Reply) : Prop :=
  ended = [] ∨ ∃ n, ended = [{ kind := kPassthrough, tag := n, code := .noAnswer, kept := true }]

theorem desk_endPassAtReset (p : Part) :
    ∃ ended, PassEnded ended ∧ p.endPassAtReset.ofp.desk = { p.ofp.desk with replies := p.ofp.replies ++ ended } := by
  unfold Part.endPassAtReset Part.endPass
  split
  · split
    · next n _ => exact ⟨_, .inr ⟨n, rfl⟩, rfl⟩
    · exact ⟨[], .inl rfl, by simp [OfficePort.desk]⟩
  · exact ⟨[], .inl rfl, by simp [OfficePort.desk]⟩

theorem desk_bedsWarmReset (p : Part) (cut : List Bed) : (p.bedsWarmReset cut).ofp.desk = p.ofp.desk :=
  desk_foldl (by intros; rfl) _ _

theorem desk_cranesWarmReset (p : Part) : p.cranesWarmReset.ofp.desk = p.ofp.desk := desk_foldl (fun p c => by simp) _ _

theorem desk_marksWarmReset (p : Part) : p.marksWarmReset.ofp.desk = p.ofp.desk := rfl

theorem desk_resetFrames (p : Part) (stops : List Gantry) (cancels : List (Crane × OrderNo)) :
    (p.resetFrames stops cancels).ofp.desk = p.ofp.desk :=
  (desk_foldl (by intros; rfl) cancels _).trans (desk_foldl (by intros; rfl) stops p)

/-- The Office Port's own part of a warm reset ends its notices alone (R186). -/
theorem desk_ofp_warmReset (o : OfficePort) : o.warmReset.desk = o.desk := rfl

/-- A warm reset keeps the desk but for the reply of the passthrough that it ends (R186). -/
theorem desk_warmReset (p : Part) :
    ∃ ended, PassEnded ended ∧ p.warmReset.ofp.desk = { p.ofp.desk with replies := p.ofp.replies ++ ended } := by
  have hblocks : (((p.bedsWarmReset p.cutBeds).cranesWarmReset).marksWarmReset).ofp.desk = p.ofp.desk := by
    rw [desk_marksWarmReset, desk_cranesWarmReset, desk_bedsWarmReset]
  unfold Part.warmReset
  dsimp only
  generalize ((p.bedsWarmReset p.cutBeds).cranesWarmReset).marksWarmReset = q at hblocks ⊢
  obtain ⟨ended, hended, hdesk⟩ := desk_endPassAtReset q
  rw [hblocks, replies_of_desk hblocks] at hdesk
  refine ⟨ended, hended, ?_⟩
  rw [desk_resetFrames, ← hdesk]
  exact desk_ofp_warmReset _

/-! ## The statement on replies -/

/-- The reply of a taken request, behind the replies that its owner has let enter. -/
theorem serve_behind {c : Instr} {s : State} (h : Ready c s.part) (kind tag : Nat) {owner : Part → Answered} {ended : List Reply}
    (hd : (owner s.part.taking).1.ofp.desk = takenDesk s.part ended) :
    ∃ t, s.serve c kind tag owner = .next t
      ∧ RepliedBehind s.part.ofp ended
          { kind := kind, tag := tag, code := (owner s.part.taking).2.1, body := (owner s.part.taking).2.2 } t.part.ofp :=
  ⟨_, serve_taken h kind tag owner,
    reply_transmit_behind ((desk_settled _).trans hd) (replies_of_free h) kind tag _ _⟩

/-- Settles O4: the owner's answer is settled, and its reply enters last. -/
theorem everyRequestIsAnswered : Obligations.EveryRequestIsAnswered := by
  intro c kind tag s hhead hready
  by_cases hreset : ∃ n, c = .controllerReset n
  · obtain ⟨n, rfl⟩ := hreset
    cases hhead
    obtain ⟨ended, hended, hd⟩ := desk_warmReset s.part.taking
    obtain ⟨t, hx, hr⟩ := serve_behind (owner := fun p => accept p.warmReset) hready kControllerReset tag hd
    exact ⟨t, _, ended, hx, rfl, rfl, rfl, fun hc => absurd rfl hc, fun hc => absurd rfl (hc tag), hended, hr.waiting, hr.busy, hr.free⟩
  · obtain ⟨owner, hx, horderly⟩ := exec_request hhead
    have ho := horderly (fun n hc => hreset ⟨n, hc⟩) s.part.taking
    obtain ⟨t, ht, hr⟩ := serve_behind hready kind tag (ended := []) (ho.desk.trans (by simp [OfficePort.desk, takenDesk]))
    refine ⟨t, _, [], (hx s).trans ht, rfl, rfl, rfl, fun hc => ?_, fun _ => rfl, .inl rfl, hr.waiting, hr.busy, hr.free⟩
    have hrefused := ho.refused hc
    have hpart := Host.Outcome.next.inj (ht.symm.trans (serve_taken hready kind tag owner))
    refine ⟨congrArg (·.2.2) hrefused, ?_⟩
    rw [hpart, hrefused]
    exact refused_transmit hready kind tag _

end Sys2Proof.Machine.OfficeDesk
end

section
/-! PROOFS. Reading the part and its flags (R178, R183 to R185): READ ENTRY of every table, READ STATUS, CLEAR FLAGS, and the requests the
Office Port refuses itself. -/

namespace Sys2Proof.Machine.OfficeReading

open EngineDispatch RemnantStock

/-! ## READ ENTRY (R183) -/

/-- A read whose first index, count and step are good answers the entries of its index list that fit. -/
theorem readTable_listed {range first count step : Nat} {l : List Nat} (hfirst : first < range) (hlo : 1 ≤ count) (hhi : count ≤ 8)
    (hl : indexList range first count step = some l) (p : Part) (header : Option (Nat × Nat)) (entry : Nat → Option Entry) :
    readTable p range first count step header entry
      = (p, .ok, .entries header (clipEntries (payloadLimit - (if header.isSome then 7 else 2)) (l.filterMap entry))) := by
  unfold readTable
  rw [checked_passed (by simp [within, hfirst, hlo, hhi]), hl]

/-- A read is answered with what the tables hold when it is taken; the waiting place is in none of them. -/
theorem answers_readTable {c : Instr} {s : State} {tag range first count step : Nat} {l : List Nat}
    {header : Part → Option (Nat × Nat)} {entry : Part → Nat → Option Entry}
    (hx : exec c s = s.serve c kReadEntry tag (fun p => readTable p range first count step (header p) (entry p)))
    (hready : Ready c s.part) (hfirst : first < range) (hlo : 1 ≤ count) (hhi : count ≤ 8)
    (hl : indexList range first count step = some l) (hheader : header s.part.taking = header s.part)
    (hentry : entry s.part.taking = entry s.part) :
    Answers c s
      { kind := kReadEntry, tag := tag, code := .ok,
        body := .entries (header s.part)
          (clipEntries (payloadLimit - (if (header s.part).isSome then 7 else 2)) (l.filterMap (entry s.part))) } s.part := by
  refine answers_plain hready hx ?_ hready.1.2.1 rfl
  rw [hheader, hentry]
  exact readTable_listed hfirst hlo hhi hl s.part.taking _ _

/-- A read of a table whose reply has no header. -/
theorem answers_plainTable {c : Instr} {s : State} {tag range first count step : Nat} (hlo : 1 ≤ count) (hhi : count ≤ 8)
    (entry : Part → Nat → Option Entry)
    (hx : exec c s = s.serve c kReadEntry tag (fun p => readTable p range first count step none (entry p)))
    (hentry : entry s.part.taking = entry s.part) (l : List Nat) (hready : Ready c s.part) (hfirst : first < range)
    (hl : indexList range first count step = some l) :
    Answers c s { kind := kReadEntry, tag := tag, code := .ok, body := .entries none (clipEntries 238 (l.filterMap (entry s.part))) }
      s.part :=
  answers_readTable (header := fun _ => none) hx hready hfirst hlo hhi hl rfl hentry

/-- Settles O32, table by table; the reply on remnants has a header. -/
theorem readEntryReadsTheTables : Obligations.ReadEntryReadsTheTables := by
  intro s tag first count step hlo hhi
  refine ⟨?_, ?_, ?_, ?_, ?_, ?_, ?_, ?_, ?_, ?_, ?_, ?_, ?_, fun l hready hfirst hl => ?_⟩
  · exact answers_plainTable hlo hhi (fun p => entryAt p.bedEntry) rfl rfl
  · exact answers_plainTable hlo hhi (fun p => entryAt p.gantryEntry) rfl rfl
  · exact answers_plainTable hlo hhi (fun p => entryAt p.craneEntry) rfl rfl
  · exact answers_plainTable hlo hhi (fun p => entryAt p.slotEntry) rfl rfl
  · exact answers_plainTable hlo hhi (fun p => entryAt p.passEntry) rfl rfl
  · exact answers_plainTable hlo hhi (fun p => entryAt p.bandEntry) rfl rfl
  · exact answers_plainTable hlo hhi (fun p => entryAt p.controllerEntry) rfl rfl
  · exact answers_plainTable hlo hhi (fun p => entryAt p.presenceEntry) rfl rfl
  · exact answers_plainTable hlo hhi (fun p => entryAt p.registrationEntry) rfl rfl
  · exact answers_plainTable hlo hhi (fun p => entryAt p.jobEntry) rfl rfl
  · exact answers_plainTable hlo hhi (fun p => entryAt p.markEntry) rfl rfl
  · exact answers_plainTable hlo hhi (fun p => entryAt p.orderEntry) rfl rfl
  · exact answers_plainTable hlo hhi (fun p => entryAt p.stationEntry) rfl rfl
  · exact answers_readTable (header := fun p => some (p.rsu.remnants.length, p.rsu.sequence)) (entry := Part.remnantEntry) rfl hready
      hfirst hlo hhi hl rfl rfl

/-! ## READ STATUS, CLEAR FLAGS and the Office Port's own refusals (R178, R184, R185) -/

theorem answers_readStatus {s : State} {tag : Nat} (h : Ready (.readStatus tag) s.part) :
    Answers (.readStatus tag) s { kind := kReadStatus, tag := tag, code := .ok, body := .status s.part.status } s.part :=
  answers_plain (owner := fun p => (p, .ok, .status p.status)) h rfl rfl h.1.2.1 rfl

/-- The flags cleared stand in no reply, and nothing is handed on. -/
theorem answers_clearFlags {s : State} {tag : Nat} (h : Ready (.clearFlags tag) s.part) :
    Answers (.clearFlags tag) s { kind := kClearFlags, tag := tag, code := .ok } s.part.clearFlags :=
  answers_settled (owner := fun p => accept p.clearFlags) h rfl rfl (Part.settled_nil h.1.2.1) rfl rfl

theorem answers_unknownRequest {s : State} {tag kind : Nat} {fault : OfficeFault} (h : Ready (.unknownRequest tag kind fault) s.part) :
    Answers (.unknownRequest tag kind fault) s { kind := kind, tag := tag, code := officeFaultReason fault } s.part :=
  answers_refused (owner := fun p => refuse p (officeFaultReason fault)) h rfl rfl

/-- Settles O33. -/
theorem statusFlagsAndUnknownRequests : Obligations.StatusFlagsAndUnknownRequests :=
  ⟨fun _ _ h => answers_readStatus h, fun _ _ h => answers_clearFlags h, fun _ _ _ h => answers_unknownRequest h,
    fun _ _ _ h => answers_unknownRequest h⟩

end Sys2Proof.Machine.OfficeReading
end

section
/-! PROOFS. The bytes of the floor line (R192 to R194): signed fields, a POSITION, an event list, and the frame around them. -/

namespace Sys2Proof.Machine.FloorAnswers

open OfficeLine

/-! ## Fields behind others (R189) -/

@[simp] theorem drop_behind {pre bs : List Byte} {n : Nat} (h : pre.length ≤ n) : (pre ++ bs).drop n = bs.drop (n - pre.length) := by
  simp [List.drop_append, List.drop_eq_nil_of_le h]

/-- A field that begins behind `pre` is a field of what follows `pre`. -/
@[simp] theorem natAt_behind {pre bs : List Byte} {offset size : Nat} (h : pre.length ≤ offset) :
    natAt (pre ++ bs) offset size = natAt bs (offset - pre.length) size := by
  rw [natAt, slice, drop_behind h, natAt, slice]

@[simp] theorem intAt_behind {pre bs : List Byte} {offset : Nat} (h : pre.length ≤ offset) :
    intAt (pre ++ bs) offset = intAt bs (offset - pre.length) := by
  rw [intAt, slice, drop_behind h, intAt, slice]

/-- A number that fits the field at the front is read back. -/
@[simp] theorem natAt_front {rest : List Byte} {size n : Nat} (h : n < 256 ^ size) : natAt (toBytes size n ++ rest) 0 size = n :=
  natAt_field (pre := []) rfl h

/-- A number that fits the last field is read back. -/
@[simp] theorem natAt_last {size n : Nat} (h : n < 256 ^ size) : natAt (toBytes size n) 0 size = n := by
  simpa using natAt_front (rest := []) h

@[simp] theorem natAt_byte (b : Byte) (bs : List Byte) : natAt (b :: bs) 0 1 = b.toNat := natAt_head b bs

@[simp] theorem natAt_behind_byte (b : Byte) (bs : List Byte) (offset size : Nat) :
    natAt (b :: bs) (offset + 1) size = natAt bs offset size := rfl

@[simp] theorem length_coordBytes (z : Int) : (coordBytes z).length = 4 := length_toBytes ..

/-- A signed quantity that fits its field is read back from its two's complement. -/
@[simp] theorem intAt_front {z : Int} {rest : List Byte} (h : fitsCoord z = true) : intAt (coordBytes z ++ rest) 0 = z := by
  obtain ⟨hlo, hhi⟩ : -2147483648 ≤ z ∧ z < 2147483648 := by simpa [fitsCoord] using h
  have hn : beNat (slice (coordBytes z ++ rest) 0 4) = (z % 4294967296).toNat := natAt_front (by omega)
  simp only [intAt, beInt, hn]
  omega

@[simp] theorem toNat_yesNoByte (b : Bool) : (yesNoByte b).toNat = b.toNat := by cases b <;> rfl

@[simp] theorem yesNo?_toNat (b : Bool) : yesNo? b.toNat = some b := by cases b <;> rfl

/-! ## POSITION (R193) -/

theorem orderEvent?_code (k : OrderEventKind) {n : Nat} (h : n < 32) : orderEvent? (k.ctorIdx + 1) n = some (some (k, n)) := by
  cases k <;> exact if_pos h

theorem code_fits (k : OrderEventKind) : k.ctorIdx + 1 < 256 := by cases k <;> decide

/-- A POSITION reads back by the pair of its last two bytes. -/
theorem parsePosition_fields {x y : Int} (hx : fitsCoord x = true) (hy : fitsCoord y = true) (hookLow loaded : Bool) {e n : Nat}
    (he : e < 256) (hn : n < 256) {event : Option (OrderEventKind × Nat)} (hevent : orderEvent? e n = some event) :
    parsePosition (coordBytes x ++ coordBytes y ++ [yesNoByte hookLow, yesNoByte loaded] ++ (toBytes 1 e ++ toBytes 1 n))
      = some (.position x y hookLow loaded event) := by
  simp [parsePosition, length_toBytes, hx, hy, he, hn, hevent]

theorem parsePosition_positionBytes {x y : Int} (hx : fitsCoord x = true) (hy : fitsCoord y = true) (hookLow loaded : Bool)
    {event : Option (OrderEventKind × Nat)} (hevent : ∀ e, event = some e → e.2 < 32) :
    parsePosition (positionBytes x y hookLow loaded event) = some (.position x y hookLow loaded event) := by
  cases event with
  | none => exact parsePosition_fields hx hy hookLow loaded (e := 0) (n := 0) (by decide) (by decide) rfl
  | some pair =>
      obtain ⟨k, n⟩ := pair
      have hn : n < 32 := hevent _ rfl
      exact parsePosition_fields hx hy hookLow loaded (code_fits k) (by omega) (orderEvent?_code k hn)

/-! ## Event lists (R194) -/

/-- An event reads back from the front of the bytes, and leaves what follows it. -/
theorem parseEvent_bytes {e : GantryEvent} (h : e.wf = true) (rest : List Byte) : parseEvent (e.bytes ++ rest) = some (e, rest) := by
  cases e with
  | registered ox oy k =>
      obtain ⟨⟨hx, hy⟩, hk⟩ : (fitsCoord ox = true ∧ fitsCoord oy = true) ∧ fitsCoord k = true := by simpa [GantryEvent.wf] using h
      simp [parseEvent, GantryEvent.bytes, length_toBytes, ← Nat.add_assoc, hx, hy, hk]
  | registerFailed => simp [parseEvent, GantryEvent.bytes, length_toBytes]
  | referenceDone => simp [parseEvent, GantryEvent.bytes, length_toBytes]
  | pierceOk => simp [parseEvent, GantryEvent.bytes, length_toBytes]
  | pierceFailed => simp [parseEvent, GantryEvent.bytes, length_toBytes]
  | segmentsDone n =>
      have hn : n < 256 := by simpa [GantryEvent.wf, fits8] using h
      simp [parseEvent, GantryEvent.bytes, length_toBytes, ← Nat.add_assoc, hn]
  | markDone s ok =>
      have hs : s < 256 := by simpa [GantryEvent.wf, fits8] using h
      cases ok <;> simp [parseEvent, GantryEvent.bytes, length_toBytes, ← Nat.add_assoc, hs]
  | stoppedAt r f =>
      obtain ⟨hr, hf⟩ : r < 65536 ∧ f < 256 := by simpa [GantryEvent.wf, fits16, fits8] using h
      simp [parseEvent, GantryEvent.bytes, length_toBytes, ← Nat.add_assoc, hr, hf]
  | fault c =>
      have hc : c < 256 := by simpa [GantryEvent.wf, fits8] using h
      simp [parseEvent, GantryEvent.bytes, length_toBytes, ← Nat.add_assoc, hc]

/-- Events read back one behind the other, up to the end of the bytes. -/
theorem parseEvents_flatMap {es : List GantryEvent} (h : es.all GantryEvent.wf = true) :
    parseEvents es.length (es.flatMap GantryEvent.bytes) = some es := by
  induction es with
  | nil => rfl
  | cons e es ih =>
      obtain ⟨he, hes⟩ : e.wf = true ∧ es.all GantryEvent.wf = true := by simpa using h
      rw [List.length_cons, List.flatMap_cons, parseEvents, parseEvent_bytes he]
      simp [ih hes]

theorem parseEventList_eventBytes {es : List GantryEvent} (hlen : es.length ≤ 4) (h : es.all GantryEvent.wf = true) :
    parseEventList (eventBytes es) = some (.events es) := by
  have hcount : natAt (eventBytes es) 0 1 = es.length := natAt_front (by omega)
  have hbehind : (eventBytes es).drop 1 = es.flatMap GantryEvent.bytes := rfl
  have hguard : ¬((eventBytes es).isEmpty = true ∨ 4 < natAt (eventBytes es) 0 1) := by
    rw [hcount]
    exact not_or.2 ⟨Bool.false_ne_true, by omega⟩
  rw [parseEventList, if_neg hguard, hcount, hbehind, parseEvents_flatMap h, Option.map_some]

/-! ## The frame (R163, R192) -/

/-- The bytes of a floor frame from the length to the end of the payload. -/
def floorBody (address kind : Nat) (payload : List Byte) : List Byte :=
  toBytes 1 (2 + payload.length) ++ toBytes 1 address ++ toBytes 1 kind ++ payload

theorem floorBytes_eq (address kind : Nat) (payload : List Byte) :
    floorBytes address kind payload = floorStart :: (floorBody address kind payload ++ crcBytes (floorBody address kind payload)) := rfl

theorem length_floorBody (address kind : Nat) (payload : List Byte) : (floorBody address kind payload).length = payload.length + 3 := by
  simp only [floorBody, List.length_append, length_toBytes]
  omega

theorem floorBody_fields {address kind : Nat} (ha : address < 256) (hk : kind < 256) (payload : List Byte) :
    natAt (floorBody address kind payload) 1 1 = address ∧ natAt (floorBody address kind payload) 2 1 = kind
      ∧ (floorBody address kind payload).drop 3 = payload := by
  refine ⟨?_, ?_, rfl⟩ <;> simp [floorBody, length_toBytes, ha, hk]

/-- A length, an address, a kind, a payload and their CRC behind the start byte are the frame they were made of. -/
theorem parseFloorFrame_floorBytes {address kind : Nat} {payload : List Byte} (ha : address < 256) (hk : kind < 256)
    (hp : payload.length ≤ 238) : parseFloorFrame (floorBytes address kind payload) = some ⟨address, kind, payload⟩ := by
  obtain ⟨haddress, hkind, hpayload⟩ := floorBody_fields ha hk payload
  have hlength := length_floorBody address kind payload
  have hlen : natAt (floorBody address kind payload ++ crcBytes (floorBody address kind payload)) 0 1 = payload.length + 2 := by
    simp only [floorBody, List.append_assoc]
    rw [natAt_front (by omega), Nat.add_comm]
  rw [floorBytes_eq]
  unfold parseFloorFrame
  generalize floorBody address kind payload = body at *
  have hbody : (body ++ crcBytes body).take (payload.length + 2 + 1) = body := List.take_left' hlength
  have hcrc : slice (body ++ crcBytes body) (payload.length + 2 + 1) 2 = crcBytes body := by
    rw [slice, List.drop_left' hlength, List.take_of_length_le (Nat.le_of_eq (length_crcBytes body))]
  have hsize : (body ++ crcBytes body).length = payload.length + 3 + 2 := by
    rw [List.length_append, hlength, length_crcBytes]
  simp only [hlen, hbody, hcrc, haddress, hkind, hpayload]
  exact if_pos ⟨trivial, by omega, by omega, by omega, trivial⟩

/-- Settles O55, answer by answer, and the frame by its fields and its CRC. -/
theorem aFloorAnswerReadsBack : Obligations.AFloorAnswerReadsBack := by
  refine ⟨fun x y hookLow loaded event hx hy hevent => ?_, fun events hlen hwf => ?_, rfl, fun code hcode => ?_,
    fun _ _ _ ha hk hp => parseFloorFrame_floorBytes ha hk hp⟩
  · simp [parseAnswer, parsePosition_positionBytes hx hy hookLow loaded hevent]
  · simp [parseAnswer, parseEventList_eventBytes hlen hwf]
  · have hread : natAt (toBytes 1 code) 0 1 = code := natAt_last (by omega)
    simp [parseAnswer, length_toBytes, hread]

end Sys2Proof.Machine.FloorAnswers
end

section
/-! PROOFS. The queue of waiting commands (log 1): a step takes its front, and no command stops the part or touches the rest. -/

namespace Sys2Proof.Machine.WaitingCommands

open OfficeDesk

theorem step_front {c : Instr} {rest : List Instr} {s : State} (h : s.pending = c :: rest) :
    step s = exec c { s with pending := rest } := by
  rw [step, h]

theorem step_idle {s : State} (h : s.pending = []) : step s = .next s := by
  rw [step, h]

/-- A command changes the part alone: a request at the waiting place, an event, a cold reset, or the release of the reset input. -/
theorem exec_part (c : Instr) (s : State) : ∃ p, exec c s = .next { s with part := p } := by
  by_cases hcold : ∃ byInput, c = .coldReset byInput
  · obtain ⟨byInput, rfl⟩ := hcold
    exact ⟨coldReset byInput, rfl⟩
  by_cases hrelease : c = .resetInputRelease
  · subst hrelease
    exact ⟨s.part.releaseReset, rfl⟩
  cases hrequest : isRequest c with
  | true =>
      obtain ⟨body, hx⟩ := exec_waiting hrequest
      exact ⟨_, hx s⟩
  | false =>
      obtain ⟨f, hx⟩ := exec_event hrequest (not_exists.1 hcold) hrelease
      exact ⟨s.part.happens f, hx s⟩

/-- Settles O1. -/
theorem stepRunsTheFrontCommand : Obligations.StepRunsTheFrontCommand := fun _ _ _ h => step_front h

/-- Settles O2: a command that changes the part alone leaves the queue. -/
theorem thePartNeverStops : Obligations.ThePartNeverStops := by
  refine ⟨fun c s => ?_, fun _ h => step_idle h⟩
  obtain ⟨p, hx⟩ := exec_part c s
  exact ⟨{ s with part := p }, hx, rfl⟩

end Sys2Proof.Machine.WaitingCommands
end
